-- ==== Sys2Proof/Word.lean ====
section
/-! DEFINITION. The word types of the block: bytes, 16-bit and 32-bit registers, cipher blocks. -/

namespace Sys2Proof

/-- A byte is an unsigned 8-bit value (R9). -/
abbrev Byte := BitVec 8

/-- A 16-bit register field (R37-R40, R50). -/
abbrev Half := BitVec 16

/-- A bus word and a command word are 32 bits (R80, R100). -/
abbrev Word := BitVec 32

/-- A cipher block is 16 bytes (R8). -/
abbrev Block := Vector Byte 16

end Sys2Proof
end

