-- ==== Sys2Proof/Syntax.lean ====
section
/-! DEFINITION. The sixteen commands of spec/opcode_table.json, one constructor a row (R103), and their operands. -/

namespace Sys2Proof

/-- The DIR field, CMD[8] (R101): 0 = encrypt, 1 = decrypt. -/
inductive Dir where
  | encrypt
  | decrypt
  deriving DecidableEq, Repr

/-- The CLS field, CMD[9] (R101): 0 = RTP, 1 = RTCP. -/
inductive Cls where
  | rtp
  | rtcp
  deriving DecidableEq, Repr

/-- The legal destinations of a key derivation (R101, R164). -/
inductive Dest where
  | ekey
  | akey
  | salt
  | pkt
  deriving DecidableEq, Repr

/-- The command set (R103). `dest` is the whole 3-bit DEST field, CMD[26:24]; its values 4-7 are
reserved (R101) and `Instr.wf` excludes them. -/
inductive Instr where
  | nop
  | cmIvRtp
  | cmIvRtcp
  | cmXor (dir : Dir) (cls : Cls)
  | kdfRtp (dir : Dir) (label : Byte) (dest : BitVec 3)
  | kdfRtcp (dir : Dir) (label : Byte) (dest : BitVec 3)
  | f8IvRtp
  | f8IvRtcp
  | f8IvPrime (dir : Dir) (cls : Cls)
  | f8Xor (dir : Dir) (cls : Cls)
  | srtpProtect
  | srtpUnprotect
  | srtpParse
  | srtcpProtect
  | srtcpUnprotect
  | srtcpParse
  deriving DecidableEq, Repr

end Sys2Proof
end

