-- ==== Sys2Proof/WellFormed.lean ====
section
/-! DEFINITION. Which commands have an encoding: a KDF's DEST is one of 0-3 (R104 (d)). -/

namespace Sys2Proof

/-- A well-formed command: DEST of a KDF is not one of the reserved values 4-7 (R101, R104 (d)).
Every other operand has only legal values. -/
def Instr.wf : Instr → Bool
  | .kdfRtp _ _ dest => decide (dest.toNat < 4)
  | .kdfRtcp _ _ dest => decide (dest.toNat < 4)
  | .nop | .cmIvRtp | .cmIvRtcp | .cmXor _ _ | .f8IvRtp | .f8IvRtcp | .f8IvPrime _ _ | .f8Xor _ _ => true
  | .srtpProtect | .srtpUnprotect | .srtpParse | .srtcpProtect | .srtcpUnprotect | .srtcpParse => true

end Sys2Proof
end

