-- ==== Sys2Proof/Decode.lean ====
section
/-! DEFINITION. Decoding a command word (R100-R105), total and rejecting by name, and the encoder. -/

namespace Sys2Proof

/-- Why a command word is illegal: the four cases of R104. -/
inductive Illegal where
  /-- R104 (a): OP is not listed in R103. -/
  | unassignedOp
  /-- R104 (b): bits 15:10 or 31:27 are not zero. -/
  | reservedBits
  /-- R104 (c): a field the command does not use is not zero. -/
  | unusedField
  /-- R104 (d): a KDF with DEST 4-7. -/
  | reservedDest
  deriving DecidableEq, Repr

/-- OP, CMD[7:0] (R101). -/
def Word.op (w : Word) : Byte := w.extractLsb' 0 8

/-- DIR, CMD[8] (R101). -/
def Word.dirBit (w : Word) : BitVec 1 := w.extractLsb' 8 1

/-- CLS, CMD[9] (R101). -/
def Word.clsBit (w : Word) : BitVec 1 := w.extractLsb' 9 1

/-- The reserved bits 15:10 (R101). -/
def Word.reservedLow (w : Word) : BitVec 6 := w.extractLsb' 10 6

/-- LABEL, CMD[23:16] (R101). -/
def Word.label (w : Word) : Byte := w.extractLsb' 16 8

/-- DEST, CMD[26:24] (R101). -/
def Word.dest (w : Word) : BitVec 3 := w.extractLsb' 24 3

/-- The reserved bits 31:27 (R101). -/
def Word.reservedHigh (w : Word) : BitVec 5 := w.extractLsb' 27 5

/-- DIR: 0 = encrypt, 1 = decrypt (R101). -/
def Dir.ofBit (b : BitVec 1) : Dir := if b = 0 then .encrypt else .decrypt

/-- CLS: 0 = RTP, 1 = RTCP (R101). -/
def Cls.ofBit (b : BitVec 1) : Cls := if b = 0 then .rtp else .rtcp

/-- A command that uses no field: DIR, CLS, LABEL and DEST must all be 0 (R104 (c)). -/
def decodePlain (w : Word) (i : Instr) : Except Illegal Instr :=
  if Word.dirBit w = 0 ∧ Word.clsBit w = 0 ∧ Word.label w = 0 ∧ Word.dest w = 0 then .ok i
  else .error .unusedField

/-- A command that uses DIR and CLS: LABEL and DEST must be 0 (R104 (c)). -/
def decodeDirCls (w : Word) (mk : Dir → Cls → Instr) : Except Illegal Instr :=
  if Word.label w = 0 ∧ Word.dest w = 0 then
    .ok (mk (Dir.ofBit (Word.dirBit w)) (Cls.ofBit (Word.clsBit w)))
  else .error .unusedField

/-- A KDF uses DIR, LABEL and DEST: CLS must be 0 (R104 (c)) and DEST is 0-3 (R104 (d)). -/
def decodeKdf (w : Word) (mk : Dir → Byte → BitVec 3 → Instr) : Except Illegal Instr :=
  if Word.clsBit w ≠ 0 then .error .unusedField
  else if (Word.dest w).toNat < 4 then
    .ok (mk (Dir.ofBit (Word.dirBit w)) (Word.label w) (Word.dest w))
  else .error .reservedDest

/-- The decoder (R105): every word is a command or is rejected by name (R104). -/
def decode (w : Word) : Except Illegal Instr :=
  if Word.reservedLow w ≠ 0 ∨ Word.reservedHigh w ≠ 0 then .error .reservedBits
  else match (Word.op w).toNat with
    | 0x00 => decodePlain w .nop
    | 0x01 => decodePlain w .cmIvRtp
    | 0x02 => decodePlain w .cmIvRtcp
    | 0x03 => decodeDirCls w .cmXor
    | 0x04 => decodeKdf w .kdfRtp
    | 0x05 => decodeKdf w .kdfRtcp
    | 0x08 => decodePlain w .f8IvRtp
    | 0x09 => decodePlain w .f8IvRtcp
    | 0x0A => decodeDirCls w .f8IvPrime
    | 0x0B => decodeDirCls w .f8Xor
    | 0x10 => decodePlain w .srtpProtect
    | 0x11 => decodePlain w .srtpUnprotect
    | 0x12 => decodePlain w .srtpParse
    | 0x14 => decodePlain w .srtcpProtect
    | 0x15 => decodePlain w .srtcpUnprotect
    | 0x16 => decodePlain w .srtcpParse
    | _ => .error .unassignedOp

/-- The OP value of a command (R103). -/
def Instr.opcode : Instr → Byte
  | .nop => 0x00
  | .cmIvRtp => 0x01
  | .cmIvRtcp => 0x02
  | .cmXor _ _ => 0x03
  | .kdfRtp _ _ _ => 0x04
  | .kdfRtcp _ _ _ => 0x05
  | .f8IvRtp => 0x08
  | .f8IvRtcp => 0x09
  | .f8IvPrime _ _ => 0x0A
  | .f8Xor _ _ => 0x0B
  | .srtpProtect => 0x10
  | .srtpUnprotect => 0x11
  | .srtpParse => 0x12
  | .srtcpProtect => 0x14
  | .srtcpUnprotect => 0x15
  | .srtcpParse => 0x16

/-- The DIR bit (R101). -/
def Dir.bit : Dir → BitVec 1
  | .encrypt => 0
  | .decrypt => 1

/-- The CLS bit (R101). -/
def Cls.bit : Cls → BitVec 1
  | .rtp => 0
  | .rtcp => 1

/-- A command word from its fields, most significant first (R101, R111). -/
def packCommand (dest : BitVec 3) (label : Byte) (cls dir : BitVec 1) (op : Byte) : Word :=
  (0#5 ++ dest ++ label ++ 0#6 ++ cls ++ dir ++ op : BitVec (5 + 3 + 8 + 6 + 1 + 1 + 8))

/-- The encoder: the word `cmd` expands to (R111). -/
def encode (i : Instr) : Word :=
  match i with
  | .cmXor dir cls => packCommand 0 0 cls.bit dir.bit i.opcode
  | .f8IvPrime dir cls => packCommand 0 0 cls.bit dir.bit i.opcode
  | .f8Xor dir cls => packCommand 0 0 cls.bit dir.bit i.opcode
  | .kdfRtp dir label dest => packCommand dest label 0 dir.bit i.opcode
  | .kdfRtcp dir label dest => packCommand dest label 0 dir.bit i.opcode
  | .nop | .cmIvRtp | .cmIvRtcp | .f8IvRtp | .f8IvRtcp => packCommand 0 0 0 0 i.opcode
  | .srtpProtect | .srtpUnprotect | .srtpParse => packCommand 0 0 0 0 i.opcode
  | .srtcpProtect | .srtcpUnprotect | .srtcpParse => packCommand 0 0 0 0 i.opcode

/-- One row of the opcode table in its match/mask form (R106): OP, the bits that are fixed, the bits that are free. -/
def Instr.mask : Instr → Word
  | .cmXor _ _ | .f8IvPrime _ _ | .f8Xor _ _ => 0xFFFFFCFF
  | .kdfRtp _ _ _ | .kdfRtcp _ _ _ => 0xFC00FEFF
  | .nop | .cmIvRtp | .cmIvRtcp | .f8IvRtp | .f8IvRtcp => 0xFFFFFFFF
  | .srtpProtect | .srtpUnprotect | .srtpParse => 0xFFFFFFFF
  | .srtcpProtect | .srtcpUnprotect | .srtcpParse => 0xFFFFFFFF

/-- A command is the one 32-bit word written to CMD (R100), so a table row's bits are the word's bits. -/
def tableWord (nbits w : Nat) : Word := BitVec.ofNat 32 (w % 2 ^ nbits)

/-- What the decoder reads from a word numbered as spec/opcode_table.json numbers it. -/
def decodeTableWord (nbits w : Nat) : Option Instr :=
  match decode (tableWord nbits w) with
  | .ok i => some i
  | .error _ => none

end Sys2Proof
end

