-- ==== Sys2Proof/Config.lean ====
section
/-! DEFINITION. The implementation parameters of R7, fixed for the life of an instance, and the free values.
None has a body that a proof could use, so a claim holds for every instance (logs 1, 2, 6). -/

namespace Sys2Proof

/-- The F8 chaining value (R187): the keystream block or the ciphertext block. -/
inductive F8Feedback where
  | keystream
  | ciphertext
  deriving DecidableEq, Repr

/-- The layout of the F8 SRTCP IV (R181, R182). -/
inductive F8RtcpLayout where
  | doc
  | rfc3711
  deriving DecidableEq, Repr

/-- KDF_RTCP_R_BYTES: the width of r in the key-id of KDF_RTCP is 4 or 6 bytes (R7, R161). -/
inductive RWidth where
  | four
  | six
  deriving DecidableEq, Repr

/-- The parameters of R7 as one argument of every command's meaning. -/
structure Params where
  /-- PKT_CAP, the packet buffer's capacity in bytes. -/
  pktCap : Nat
  /-- E, the block cipher (R90): a pure, total function of the key bytes and a 16-byte block. -/
  cipher : List Byte → Block → Block
  /-- CIPHER_KEY_BITS (R91): which key sizes, in bits, the cipher port accepts. -/
  keyBitsOk : Nat → Bool
  /-- Mac (R92): algorithm, key, message and tag length give exactly that many bytes. -/
  mac : BitVec 4 → List Byte → List Byte → (tagLen : Nat) → Vector Byte tagLen
  /-- MAC_OK (R93): which (algorithm, key length, tag length) the MAC port accepts. -/
  macOk : BitVec 4 → Nat → Nat → Bool
  /-- F8_FEEDBACK (R187). -/
  f8Feedback : F8Feedback
  /-- F8_RTCP_IV_LAYOUT (R181, R182). -/
  f8RtcpLayout : F8RtcpLayout
  /-- KDF_RTCP_R_BYTES (R161, R166). -/
  kdfRtcpRWidth : RWidth

/-- PKT_CAP is a multiple of 4 from 64 to 61440 (R7); this is how many words it has above 64 bytes. -/
opaque Config.pktCapExtraWords : Fin 15345

/-- PKT_CAP (R7): every legal capacity and no other. -/
def Config.pktCap : Nat := 4 * Config.pktCapExtraWords.val + 64

/-- E (R90). -/
opaque Config.cipher : List Byte → Block → Block

/-- Which of the key sizes 8, 16, ..., 256 bits the cipher port accepts (R91). -/
opaque Config.cipherPortAccepts : Nat → Bool

/-- CIPHER_KEY_BITS (R7, R91): any set of multiples of 8 from 8 to 256, the empty set among them (log 2). -/
def Config.keyBitsOk (bits : Nat) : Bool :=
  bits % 8 == 0 && (decide (8 ≤ bits) && (decide (bits ≤ 256) && Config.cipherPortAccepts bits))

/-- Mac (R92). -/
opaque Config.mac : BitVec 4 → List Byte → List Byte → (tagLen : Nat) → Vector Byte tagLen

/-- MAC_OK (R93). -/
opaque Config.macOk : BitVec 4 → Nat → Nat → Bool

/-- F8_FEEDBACK is KEYSTREAM when this is false (R7). -/
opaque Config.f8ChainsCiphertext : Bool

/-- F8_RTCP_IV_LAYOUT is DOC when this is false (R7). -/
opaque Config.f8RtcpIvIsRfc3711 : Bool

/-- KDF_RTCP_R_BYTES is 4 when this is false (R7). -/
opaque Config.kdfRtcpRIsSixBytes : Bool

/-- The instance: every parameter of R7, none of them known. -/
def Config.params : Params where
  pktCap := Config.pktCap
  cipher := Config.cipher
  keyBitsOk := Config.keyBitsOk
  mac := Config.mac
  macOk := Config.macOk
  f8Feedback := if Config.f8ChainsCiphertext then .ciphertext else .keystream
  f8RtcpLayout := if Config.f8RtcpIvIsRfc3711 then .rfc3711 else .doc
  kdfRtcpRWidth := if Config.kdfRtcpRIsSixBytes then .six else .four

/-- FREE VALUE: what a read of an offset other than STATUS, ID and VERSION returns while BUSY = 1
(R88, I9); the argument is the number of such values drawn before (log 6). -/
opaque Config.busyRead : Nat → Word

end Sys2Proof
end

