-- ==== Sys2Proof/Machine/State.lean ====
section
/-! DEFINITION. The state of the block (R30, R31, R52, R53), the events that reach it, its reset, and the types of the stops, of which no step makes use. -/

namespace Sys2Proof.Machine

/-- The engine's mode (R53). -/
inductive Mode where
  | idle
  | busy
  deriving DecidableEq, Repr

/-- The status codes of R271, by name. Codes 3, 4 and 5 are the host software's and the block never produces them. -/
inductive Code where
  | ok
  | nullArgument
  | badParameter
  | notFound
  | outOfResources
  | duplicatePacket
  | authFailure
  | insufficientBufferSpace
  | failed
  | illegalCommand
  deriving DecidableEq, Repr

/-- The fields of STATUS (R35). Its reserved bits read 0 and ignore writes, so they are no state. -/
structure Status where
  busy   : Bool
  done   : Bool
  wbusy  : Bool
  code   : Code
  lastop : Byte
  deriving DecidableEq, Repr

/-- The fields of CFG_RTP and CFG_RTCP (R42). Bit 2 is RAZ/WI, so it is no state. -/
structure Cfg where
  enc       : BitVec 2
  mkiEn     : Bool
  auth      : BitVec 4
  tagLen    : Byte
  mkiLen    : Byte
  prefixLen : Byte
  deriving DecidableEq, Repr

/-- RES_FLAGS (R51). -/
structure ResFlags where
  e    : Bool
  mkip : Bool
  tagp : Bool
  deriving DecidableEq, Repr

/-- The result registers RES_* (R50, R51). -/
structure Results where
  hdrLen : Half
  payLen : Half
  mkiOff : Half
  tagOff : Half
  idxLo  : Word
  idxHi  : Half
  flags  : ResFlags
  deriving DecidableEq, Repr

/-- The packet buffer: (offset, byte) pairs in the canonical form of `Memory.wf`. -/
abbrev Memory := List Host.Cell

/-- What the RAMs hold when a hard reset ends: R300 leaves these bytes unspecified, so the event that brings the
reset brings them, whatever they are (log 5). `pkt` lists PKT's bytes from offset 0. -/
structure Ram where
  mkey  : Vector Byte 32
  msalt : Vector Byte 16
  ekey  : Vector Byte 32
  salt  : Vector Byte 16
  akey  : Vector Byte 64
  mki   : Vector Byte 16
  pkt   : List Byte
  deriving DecidableEq, Repr

/-- What happens next, and who does it (R30, R89): a host access at a byte offset of the map, a hard reset, or the
engine's turn. -/
inductive Event where
  | hostRead (off : Nat)
  | hostWrite (off : Nat) (w : Word)
  | hardReset (ram : Ram)
  | engineTurn
  deriving DecidableEq, Repr

/-- The byte windows of the register map (R45-R49). -/
inductive WindowName where
  | mkey
  | msalt
  | ekey
  | salt
  | akey
  | mki
  | rxMki
  | ivreg
  | ivpreg
  deriving DecidableEq, Repr

/-- What a word offset of the map selects (R31). A window's and PKT's byte offset counts from the window's start. -/
inductive Target where
  | id
  | version
  | ctrl
  | status
  | cmd
  | pktLen
  | boff
  | blen
  | idxLo
  | idxHi
  | kdr
  | cfgRtp
  | cfgRtcp
  | mkeyLen
  | msaltLen
  | ekeyLen
  | akeyLen
  | saltLen
  | resHdrLen
  | resPayLen
  | resMkiOff
  | resTagOff
  | resIdxLo
  | resIdxHi
  | resFlags
  | window (name : WindowName) (k : Nat)
  | pkt (k : Nat)
  | unmapped
  deriving DecidableEq, Repr

/-- Why a step can stop with a fault: there is no reason, so no constructor. Every command completes with a status code
(R270), and an access that selects nothing reads 0 or is ignored (R31, R81, R85). -/
inductive Fault where
  deriving DecidableEq, Repr

/-- Why a step can be refused. -/
inductive Refusal where
  /-- Raised by an arm of exec for an instruction that has no meaning yet; no arm raises it now. Safe. -/
  | notModelled (mnemonic : String)
  deriving DecidableEq, Repr

/-- The state of the block. The last three fields are the model's own (logs 6, 7, 9). -/
structure State where
  /-- Engine mode (R53). -/
  mode : Mode
  /-- The engine's pending command word (R53). -/
  pending : Word
  /-- CTRL.IE (R34). -/
  ie : Bool
  /-- STATUS (R35). -/
  status : Status
  /-- CMD, the last accepted command word (R36). -/
  cmd : Word
  /-- PKT_LEN (R37). -/
  pktLen : Half
  /-- BOFF (R38). -/
  boff : Half
  /-- BLEN (R39). -/
  blen : Half
  /-- IDX_LO (R40). -/
  idxLo : Word
  /-- IDX_HI (R40). -/
  idxHi : Half
  /-- KDR (R41). -/
  kdr : Word
  /-- CFG_RTP (R42). -/
  cfgRtp : Cfg
  /-- CFG_RTCP (R42). -/
  cfgRtcp : Cfg
  /-- MKEY_LEN (R44). -/
  mkeyLen : Byte
  /-- MSALT_LEN (R44). -/
  msaltLen : Byte
  /-- EKEY_LEN (R44). -/
  ekeyLen : Byte
  /-- AKEY_LEN (R44). -/
  akeyLen : Byte
  /-- SALT_LEN (R44). -/
  saltLen : Byte
  /-- MKEY, the master key (R45). -/
  mkey : Vector Byte 32
  /-- MSALT, the master salt (R45). -/
  msalt : Vector Byte 16
  /-- EKEY, the session encrypt key (R45). -/
  ekey : Vector Byte 32
  /-- SALT, the session salt (R45). -/
  salt : Vector Byte 16
  /-- AKEY, the session authentication key (R45). -/
  akey : Vector Byte 64
  /-- MKI, the identifier that protect commands append (R46). -/
  mki : Vector Byte 16
  /-- RX_MKI, the identifier found in a received packet (R47). -/
  rxMki : Vector Byte 16
  /-- IVREG (R48). -/
  ivreg : Block
  /-- IVPREG (R49). -/
  ivpreg : Block
  /-- RES_* (R50, R51). -/
  res : Results
  /-- PKT, the packet buffer (R52). -/
  pkt : Memory
  /-- The model's own: the events still to come, oldest first; when none is left the turn is the engine's. -/
  schedule : List Event
  /-- The model's own: the word the last host read returned. -/
  readData : Word
  /-- The model's own: how many unspecified read values have been drawn. -/
  draws : Nat
  deriving DecidableEq, Repr

/-- STATUS after reset (R300). -/
def Status.zero : Status := ⟨false, false, false, .ok, 0⟩

/-- A configuration register after reset (R300): no cipher, no authentication, no MKI, no prefix. -/
def Cfg.zero : Cfg := ⟨0, false, 0, 0, 0, 0⟩

/-- The result registers after reset (R300). -/
def Results.zero : Results := ⟨0, 0, 0, 0, 0, 0, ⟨false, false, false⟩⟩

/-- The block after a hard reset (R300). The RAM windows and PKT, which R300 leaves unspecified, hold zero here
(logs 3 and 4); `State.hardReset` gives them any contents. -/
def State.reset : State where
  mode := .idle
  pending := 0
  ie := false
  status := Status.zero
  cmd := 0
  pktLen := 0
  boff := 0
  blen := 0
  idxLo := 0
  idxHi := 0
  kdr := 0
  cfgRtp := Cfg.zero
  cfgRtcp := Cfg.zero
  mkeyLen := 0
  msaltLen := 0
  ekeyLen := 0
  akeyLen := 0
  saltLen := 0
  mkey := Vector.replicate 32 0
  msalt := Vector.replicate 16 0
  ekey := Vector.replicate 32 0
  salt := Vector.replicate 16 0
  akey := Vector.replicate 64 0
  mki := Vector.replicate 16 0
  rxMki := Vector.replicate 16 0
  ivreg := Vector.replicate 16 0
  ivpreg := Vector.replicate 16 0
  res := Results.zero
  pkt := []
  schedule := []
  readData := 0
  draws := 0

end Sys2Proof.Machine
end

