-- ==== Sys2Proof/Machine/Bytes.lean ====
section
/-! DEFINITION. Byte strings (R9, R10): big-endian integers, XOR, slices, and windows of fixed size. -/

namespace Sys2Proof.Machine

/-- `v` written as `n` bytes, most significant first (`beN` of R10). -/
def beBytes : Nat → Nat → List Byte
  | 0, _ => []
  | n + 1, v => BitVec.ofNat 8 (v / 256 ^ n) :: beBytes n v

/-- `be_read` of R10: the integer a big-endian byte string stands for. -/
def beRead (bs : List Byte) : Nat := bs.foldl (fun acc b => acc * 256 + b.toNat) 0

/-- `zeros(n)` of R9. -/
def zeros (n : Nat) : List Byte := List.replicate n 0

/-- `s ⊕ t` of R9. -/
def xorBytes (s t : List Byte) : List Byte := List.zipWith (fun a b => a ^^^ b) s t

/-- `s[a .. a+n)` of R9. -/
def slice (s : List Byte) (a n : Nat) : List Byte := (s.drop a).take n

/-- `s` with the bytes from offset `a` replaced by `t`. -/
def putAt (s : List Byte) (a : Nat) (t : List Byte) : List Byte := s.take a ++ t ++ s.drop (a + t.length)

/-- `s` with the bytes from offset `a` XORed with `t` (the `x[a..b) := x[a..b) ⊕ t` of R131). -/
def xorAt (s : List Byte) (a : Nat) (t : List Byte) : List Byte := putAt s a (xorBytes (slice s a t.length) t)

/-- `ceil(a / b)` of R10. -/
def ceilDiv (a b : Nat) : Nat := (a + b - 1) / b

/-- A byte string as a window of `n` bytes: cut to `n` bytes, filled up with zeros. Used where the length is `n`. -/
def fit (n : Nat) (s : List Byte) : Vector Byte n :=
  ⟨((s ++ zeros n).take n).toArray, by simp [zeros]⟩

/-- Window bytes `[a, a + len t)` replaced by `t`; bytes past the window's end are dropped (none is, where it is used). -/
def putWindow {n : Nat} (w : Vector Byte n) (a : Nat) (t : List Byte) : Vector Byte n :=
  fit n (putAt w.toList a t)

end Sys2Proof.Machine
end

