-- ==== Sys2Proof/Machine/Flags.lean ====
section
/-! DEFINITION. Status codes' numbers, the register images of STATUS, CTRL, CFG_* and RES_FLAGS, and IRQ. -/

namespace Sys2Proof.Machine

/-- The number of a status code (R271). -/
def Code.bits : Code → BitVec 4
  | .ok => 0
  | .nullArgument => 1
  | .badParameter => 2
  | .notFound => 3
  | .outOfResources => 4
  | .duplicatePacket => 5
  | .authFailure => 6
  | .insufficientBufferSpace => 7
  | .failed => 8
  | .illegalCommand => 9

/-- The codes the block can produce: all but 3, 4 and 5, which are the host software's (R271). -/
def Code.produced : Code → Bool
  | .notFound | .outOfResources | .duplicatePacket => false
  | .ok | .nullArgument | .badParameter | .authFailure | .insufficientBufferSpace | .failed | .illegalCommand => true

/-- STATUS as the host reads it (R35): LASTOP [23:16], CODE [11:8], WBUSY [2], DONE [1], BUSY [0]. -/
def Status.word (t : Status) : Word :=
  (0#8 ++ t.lastop ++ 0#4 ++ t.code.bits ++ 0#5 ++ BitVec.ofBool t.wbusy ++ BitVec.ofBool t.done ++ BitVec.ofBool t.busy :
    BitVec (8 + 8 + 4 + 4 + 5 + 1 + 1 + 1))

/-- A write to STATUS clears DONE by bit 1 and WBUSY by bit 2 and ignores every other bit (R35, R261). -/
def Status.acknowledge (t : Status) (w : Word) : Status :=
  { t with done := t.done && !w.getLsbD 1, wbusy := t.wbusy && !w.getLsbD 2 }

/-- CFG_RTP or CFG_RTCP as the host reads it (R42). Bit 2 reads 0. -/
def Cfg.word (c : Cfg) : Word :=
  (c.prefixLen ++ c.mkiLen ++ c.tagLen ++ c.auth ++ BitVec.ofBool c.mkiEn ++ 0#1 ++ c.enc : BitVec (8 + 8 + 8 + 4 + 1 + 1 + 2))

/-- What a write to CFG_RTP or CFG_RTCP stores (R42). Bit 2 is ignored. -/
def Cfg.ofWord (w : Word) : Cfg where
  enc := w.extractLsb' 0 2
  mkiEn := w.getLsbD 3
  auth := w.extractLsb' 4 4
  tagLen := w.extractLsb' 8 8
  mkiLen := w.extractLsb' 16 8
  prefixLen := w.extractLsb' 24 8

/-- RES_FLAGS as the host reads it (R51): TAGP [2], MKIP [1], E [0]. -/
def ResFlags.word (f : ResFlags) : Word :=
  (0#29 ++ BitVec.ofBool f.tagp ++ BitVec.ofBool f.mkip ++ BitVec.ofBool f.e : BitVec (29 + 1 + 1 + 1))

/-- CTRL as the host reads it (R34): IE [0]; SRST always reads 0. -/
def ctrlWord (ie : Bool) : Word := (0#31 ++ BitVec.ofBool ie : BitVec (31 + 1))

/-- The interrupt output (R280): IRQ = CTRL.IE AND STATUS.DONE. -/
def State.irq (s : State) : Bool := s.ie && s.status.done

/-- The flags a framer command reports (R51). -/
def framerFlags (c : Cfg) (e : Bool) : ResFlags := ⟨e, c.mkiEn, decide (c.auth ≠ 0)⟩

end Sys2Proof.Machine
end

