-- ==== Sys2Proof/Machine/Ops.lean ====
section
/-! DEFINITION. The shared operations: the packet buffer, completing a command (the block's only way of raising an
error, R270, R274) and acknowledging it (R261), soft and hard reset (R300, R301), accepting a command (R36). -/

namespace Sys2Proof.Machine

/-- What a PKT byte that is not listed reads as (log 4). -/
def Memory.unlisted : Byte := 0

/-- One byte of PKT. -/
def Memory.read (m : Memory) (a : Nat) : Byte :=
  match m with
  | [] => Memory.unlisted
  | (k, v) :: rest => if k = a then v else Memory.read rest a

/-- A cell in front of a list, unless its byte is what an unlisted address reads as. -/
def Memory.cell (a : Nat) (b : Byte) (rest : Memory) : Memory :=
  if b = Memory.unlisted then rest else (a, b) :: rest

/-- Write one byte of PKT, keeping the list's form. -/
def Memory.write (m : Memory) (a : Nat) (b : Byte) : Memory :=
  match m with
  | [] => Memory.cell a b []
  | (k, v) :: rest =>
    if a < k then Memory.cell a b ((k, v) :: rest)
    else if a = k then Memory.cell a b rest
    else (k, v) :: Memory.write rest a b

/-- Every listed offset is above `lo`, rising, and no listed byte is the unlisted value. -/
def Memory.wfFrom (lo : Nat) (m : Memory) : Bool :=
  match m with
  | [] => true
  | (k, v) :: rest => decide (lo ≤ k) && (decide (v ≠ Memory.unlisted) && Memory.wfFrom (k + 1) rest)

/-- The canonical form: offsets strictly rising, no entry equal to what an unlisted offset reads as. -/
def Memory.wf (m : Memory) : Bool := Memory.wfFrom 0 m

/-- Every listed offset is below `n`. -/
def Memory.below (m : Memory) (n : Nat) : Bool := m.all fun c => decide (c.1 < n)

/-- `MemRead(a, n)` of R12: `PKT[a .. a+n)`. -/
def Memory.load (m : Memory) (a : Nat) : Nat → List Byte
  | 0 => []
  | n + 1 => m.read a :: Memory.load m (a + 1) n

/-- `MemWrite(a, n, bs)` of R12: write the bytes of `bs` at `PKT[a ..]`. -/
def Memory.store (m : Memory) (a : Nat) (bs : List Byte) : Memory :=
  match bs with
  | [] => m
  | b :: rest => Memory.store (m.write a b) (a + 1) rest

/-- Completion with any code (R274): CODE, LASTOP, DONE, BUSY and the mode, and nothing else. This is how the block
raises an error (R270); `Status.acknowledge` is the way back (R282). -/
def State.complete (s : State) (c : Code) : State :=
  { s with
    status := { s.status with code := c, lastop := Word.op s.cmd, done := true, busy := false }
    mode := .idle }

/-- A command's check: when it fails, the code it raises. -/
abbrev Check := Bool × Code

/-- The first code that applies, of a list of checks in the order of the command's rule (R273). -/
def firstRaised : List Check → Option Code
  | [] => none
  | (bad, c) :: rest => if bad then some c else firstRaised rest

/-- How a command ends (R274): if a check raises a code, only STATUS changes; otherwise the command's writes, given as
the state `done`, take effect in the same step and it completes with OK. -/
def runCommand (s : State) (checks : List Check) (done : State) : Host.Outcome State Fault Refusal :=
  match firstRaised checks with
  | some c => .next (s.complete c)
  | none => .next (done.complete .ok)

/-- An accepted CMD write (R36): CMD and `pending` become `w`, BUSY becomes 1; DONE, CODE and LASTOP stay. -/
def State.accept (s : State) (w : Word) : State :=
  { s with cmd := w, pending := w, mode := .busy, status := { s.status with busy := true } }

/-- The soft reset (R301): every register of R300, and RX_MKI, IVREG and IVPREG, at its reset value; the windows MKEY,
MSALT, EKEY, SALT, AKEY, MKI and PKT keep their contents. -/
def State.softReset (s : State) : State :=
  { State.reset with
    mkey := s.mkey
    msalt := s.msalt
    ekey := s.ekey
    salt := s.salt
    akey := s.akey
    mki := s.mki
    pkt := s.pkt
    schedule := s.schedule
    readData := s.readData
    draws := s.draws }

/-- The hard reset (R300), with RAM contents that the rule leaves unspecified (log 5). A running command is abandoned. -/
def State.hardReset (P : Params) (s : State) (ram : Ram) : State :=
  { State.reset with
    mkey := ram.mkey
    msalt := ram.msalt
    ekey := ram.ekey
    salt := ram.salt
    akey := ram.akey
    mki := ram.mki
    pkt := Memory.store [] 0 (ram.pkt.take P.pktCap)
    schedule := s.schedule
    readData := s.readData
    draws := s.draws }

end Sys2Proof.Machine
end

