-- ==== Sys2Proof/Machine/Operands.lean ====
section
/-! DEFINITION. Operand assembly (R102): key operands, the index register's fields, configuration fields (R42, R43), the
header image (R212), the KDF's destinations (R164) and the RTP header length (R211). -/

namespace Sys2Proof.Machine

/-- A key operand is `W[0 .. W_LEN)` (R102). -/
def State.mkeyBytes (s : State) : List Byte := s.mkey.toList.take s.mkeyLen.toNat

/-- `MSALT[0 .. MSALT_LEN)` (R102). -/
def State.msaltBytes (s : State) : List Byte := s.msalt.toList.take s.msaltLen.toNat

/-- `EKEY[0 .. EKEY_LEN)` (R102). -/
def State.ekeyBytes (s : State) : List Byte := s.ekey.toList.take s.ekeyLen.toNat

/-- `SALT[0 .. SALT_LEN)` (R102). -/
def State.saltBytes (s : State) : List Byte := s.salt.toList.take s.saltLen.toNat

/-- `AKEY[0 .. AKEY_LEN)` (R102). -/
def State.akeyBytes (s : State) : List Byte := s.akey.toList.take s.akeyLen.toNat

/-- IDX, 48 bits (R40, R102). -/
def State.idx (s : State) : BitVec 48 := (s.idxHi ++ s.idxLo : BitVec (16 + 32))

/-- ROC = IDX[47:16] (R102). -/
def State.roc (s : State) : BitVec 32 := s.idx.extractLsb' 16 32

/-- The RTCP index, IDX[30:0] (R102). -/
def State.index31 (s : State) : BitVec 31 := s.idxLo.extractLsb' 0 31

/-- The RTCP E bit, IDX[31] (R102). -/
def State.idxE (s : State) : Bool := s.idxLo.getLsbD 31

/-- The encryption algorithms of CFG.ENC (R42); 3 is reserved. -/
inductive Enc where
  | none
  | aesCm
  | aesF8
  | reserved
  deriving DecidableEq, Repr

/-- CFG.ENC by name (R42). -/
def Cfg.alg (c : Cfg) : Enc :=
  if c.enc = 0 then .none else if c.enc = 1 then .aesCm else if c.enc = 2 then .aesF8 else .reserved

/-- ENC ∈ {1, 2}: the class encrypts (R214). -/
def Cfg.encrypts (c : Cfg) : Bool := decide (c.enc = 1) || decide (c.enc = 2)

/-- m(C) (R43). -/
def Cfg.m (c : Cfg) : Nat := if c.mkiEn then c.mkiLen.toNat else 0

/-- t(C) (R43). -/
def Cfg.t (c : Cfg) : Nat := if c.auth ≠ 0 then c.tagLen.toNat else 0

/-- footer(C) (R43): m + t, plus 4 for RTCP. -/
def Cfg.footer (c : Cfg) (cls : Cls) : Nat :=
  match cls with
  | .rtp => c.m + c.t
  | .rtcp => c.m + c.t + 4

/-- The RTP header image, PKT[0..12) (R180, R215). -/
def State.rtpHeader (s : State) : List Byte := s.pkt.load 0 12

/-- The RTCP header image, PKT[0..8) (R181, R215). -/
def State.rtcpHeader (s : State) : List Byte := s.pkt.load 0 8

/-- seq = be_read(PKT[2..4)) (R212). -/
def State.rtpSeq (s : State) : BitVec 16 := BitVec.ofNat 16 (beRead (s.pkt.load 2 2))

/-- ssrc = be_read(PKT[8..12)) for RTP (R212). -/
def State.rtpSsrc (s : State) : BitVec 32 := BitVec.ofNat 32 (beRead (s.pkt.load 8 4))

/-- ssrc = be_read(PKT[4..8)) for RTCP (R212). -/
def State.rtcpSsrc (s : State) : BitVec 32 := BitVec.ofNat 32 (beRead (s.pkt.load 4 4))

/-- The packet index roc·2^16 + seq (R212). -/
def State.rtpIndex (s : State) : BitVec 48 := (s.roc ++ s.rtpSeq : BitVec (32 + 16))

/-- The length of the packet at PKT[0 .. PKT_LEN), as a number. -/
def State.packetLen (s : State) : Nat := s.pktLen.toNat

/-- DEST by name (R101); 4-7 are reserved. -/
def destOf (d : BitVec 3) : Option Dest :=
  match d.toNat with
  | 0 => some .ekey
  | 1 => some .akey
  | 2 => some .salt
  | 3 => some .pkt
  | _ => none

/-- The size of the destination window (R164); PKT has no window size. -/
def Dest.windowSize : Dest → Nat
  | .ekey => 32
  | .akey => 64
  | .salt => 16
  | .pkt => 0

/-- The length of the RTP header (R211), or none where the rule says FAIL. `limit` ends the region that may hold it. -/
def rtpHdrLen (p : Memory) (limit : Nat) : Option Nat :=
  if limit < 12 then none
  else
    let cc := ((p.read 0).extractLsb' 0 4).toNat
    let h := 12 + 4 * cc
    if h > limit then none
    else if (p.read 0).getLsbD 4 then
      if h + 4 > limit then none
      else
        let h2 := h + 4 + 4 * beRead (p.load (h + 2) 2)
        if h2 > limit then none else some h2
    else some h

/-- The header length where the parse succeeded; a command uses it only after the check that it did. -/
def rtpHdrLenOr0 (p : Memory) (limit : Nat) : Nat := (rtpHdrLen p limit).getD 0

end Sys2Proof.Machine
end

