-- ==== Sys2Proof/Machine/Bus.lean ====
section
/-! DEFINITION. The host bus: the register map (R31), word packing (R82), and host reads and writes (R80-R89). -/

namespace Sys2Proof.Machine

/-- An offset that the block decodes: 0x000 .. 0x1000 + PKT_CAP − 1 (R85). -/
def inMap (P : Params) (off : Nat) : Bool := decide (off < 0x1000) || decide (off - 0x1000 < P.pktCap)

/-- The registers of R31, by offset. -/
def registerAt : Nat → Target
  | 0x000 => .id
  | 0x004 => .version
  | 0x008 => .ctrl
  | 0x00C => .status
  | 0x010 => .cmd
  | 0x014 => .pktLen
  | 0x018 => .boff
  | 0x01C => .blen
  | 0x020 => .idxLo
  | 0x024 => .idxHi
  | 0x028 => .kdr
  | 0x02C => .cfgRtp
  | 0x030 => .cfgRtcp
  | 0x034 => .mkeyLen
  | 0x038 => .msaltLen
  | 0x03C => .ekeyLen
  | 0x040 => .akeyLen
  | 0x044 => .saltLen
  | 0x060 => .resHdrLen
  | 0x064 => .resPayLen
  | 0x068 => .resMkiOff
  | 0x06C => .resTagOff
  | 0x070 => .resIdxLo
  | 0x074 => .resIdxHi
  | 0x078 => .resFlags
  | _ => .unmapped

/-- A window of R31's map: its first offset, its size and its name. -/
structure WindowRow where
  base : Nat
  size : Nat
  name : WindowName
  deriving DecidableEq, Repr

/-- The byte windows of R31. -/
def windowRows : List WindowRow :=
  [⟨0x100, 32, .mkey⟩, ⟨0x120, 16, .msalt⟩, ⟨0x140, 32, .ekey⟩, ⟨0x160, 16, .salt⟩, ⟨0x180, 64, .akey⟩,
   ⟨0x1C0, 16, .mki⟩, ⟨0x1D0, 16, .rxMki⟩, ⟨0x1E0, 16, .ivreg⟩, ⟨0x1F0, 16, .ivpreg⟩]

/-- The window that holds an offset, if one does. -/
def windowAt (rows : List WindowRow) (off : Nat) : Target :=
  match rows with
  | [] => .unmapped
  | r :: rest => if r.base ≤ off ∧ off < r.base + r.size then .window r.name (off - r.base) else windowAt rest off

/-- What an offset of the map selects (R31). -/
def targetOf (off : Nat) : Target :=
  if 0x1000 ≤ off then .pkt (off - 0x1000)
  else if 0x100 ≤ off then windowAt windowRows off
  else registerAt off

/-- The bytes of a window. -/
def State.windowBytes (s : State) (w : WindowName) : List Byte :=
  match w with
  | .mkey => s.mkey.toList
  | .msalt => s.msalt.toList
  | .ekey => s.ekey.toList
  | .salt => s.salt.toList
  | .akey => s.akey.toList
  | .mki => s.mki.toList
  | .rxMki => s.rxMki.toList
  | .ivreg => s.ivreg.toList
  | .ivpreg => s.ivpreg.toList

/-- Four bytes as a bus word: the byte at the lowest offset in bits 31:24 (R82). -/
def busWord (bs : List Byte) : Word := BitVec.ofNat 32 (beRead bs)

/-- A bus word as four bytes (R82). -/
def busBytes (w : Word) : List Byte := beBytes 4 w.toNat

/-- The value of a word of the map (R31-R52). Unused bits and unmapped offsets read 0. -/
def State.readTarget (s : State) (t : Target) : Word :=
  match t with
  | .id => 0x53525450
  | .version => 0x00000001
  | .ctrl => ctrlWord s.ie
  | .status => s.status.word
  | .cmd => s.cmd
  | .pktLen => s.pktLen.setWidth 32
  | .boff => s.boff.setWidth 32
  | .blen => s.blen.setWidth 32
  | .idxLo => s.idxLo
  | .idxHi => s.idxHi.setWidth 32
  | .kdr => s.kdr
  | .cfgRtp => s.cfgRtp.word
  | .cfgRtcp => s.cfgRtcp.word
  | .mkeyLen => s.mkeyLen.setWidth 32
  | .msaltLen => s.msaltLen.setWidth 32
  | .ekeyLen => s.ekeyLen.setWidth 32
  | .akeyLen => s.akeyLen.setWidth 32
  | .saltLen => s.saltLen.setWidth 32
  | .resHdrLen => s.res.hdrLen.setWidth 32
  | .resPayLen => s.res.payLen.setWidth 32
  | .resMkiOff => s.res.mkiOff.setWidth 32
  | .resTagOff => s.res.tagOff.setWidth 32
  | .resIdxLo => s.res.idxLo
  | .resIdxHi => s.res.idxHi.setWidth 32
  | .resFlags => s.res.flags.word
  | .window w k => busWord (slice (s.windowBytes w) k 4)
  | .pkt k => busWord (s.pkt.load k 4)
  | .unmapped => 0

/-- A word write into a window (R45-R49, R82). RX_MKI and IVPREG are read-only. -/
def State.writeWindow (s : State) (w : WindowName) (k : Nat) (v : Word) : State :=
  match w with
  | .mkey => { s with mkey := putWindow s.mkey k (busBytes v) }
  | .msalt => { s with msalt := putWindow s.msalt k (busBytes v) }
  | .ekey => { s with ekey := putWindow s.ekey k (busBytes v) }
  | .salt => { s with salt := putWindow s.salt k (busBytes v) }
  | .akey => { s with akey := putWindow s.akey k (busBytes v) }
  | .mki => { s with mki := putWindow s.mki k (busBytes v) }
  | .rxMki => s
  | .ivreg => { s with ivreg := putWindow s.ivreg k (busBytes v) }
  | .ivpreg => s

/-- A write to CTRL while BUSY = 0 (R34): SRST = 1 performs the soft reset instead of storing IE. -/
def State.writeCtrl (s : State) (v : Word) : State :=
  if v.getLsbD 1 then s.softReset else { s with ie := v.getLsbD 0 }

/-- A write to STATUS (R35): it acknowledges, whether BUSY is 0 or 1. -/
def State.writeStatus (s : State) (v : Word) : State := { s with status := s.status.acknowledge v }

/-- A word write while BUSY = 0 (R31-R52). Read-only and unmapped words ignore it. -/
def State.writeTarget (s : State) (t : Target) (v : Word) : State :=
  match t with
  | .id | .version => s
  | .ctrl => s.writeCtrl v
  | .status => s.writeStatus v
  | .cmd => s.accept v
  | .pktLen => { s with pktLen := v.setWidth 16 }
  | .boff => { s with boff := v.setWidth 16 }
  | .blen => { s with blen := v.setWidth 16 }
  | .idxLo => { s with idxLo := v }
  | .idxHi => { s with idxHi := v.setWidth 16 }
  | .kdr => { s with kdr := v }
  | .cfgRtp => { s with cfgRtp := Cfg.ofWord v }
  | .cfgRtcp => { s with cfgRtcp := Cfg.ofWord v }
  | .mkeyLen => { s with mkeyLen := v.setWidth 8 }
  | .msaltLen => { s with msaltLen := v.setWidth 8 }
  | .ekeyLen => { s with ekeyLen := v.setWidth 8 }
  | .akeyLen => { s with akeyLen := v.setWidth 8 }
  | .saltLen => { s with saltLen := v.setWidth 8 }
  | .resHdrLen | .resPayLen | .resMkiOff | .resTagOff | .resIdxLo | .resIdxHi | .resFlags => s
  | .window w k => s.writeWindow w k v
  | .pkt k => { s with pkt := s.pkt.store k (busBytes v) }
  | .unmapped => s

/-- STATUS, ID and VERSION are the words a host may rely on while BUSY = 1 (R88). -/
def Target.readableWhileBusy : Target → Bool
  | .id | .version | .status => true
  | _ => false

/-- A host access that selects a word of the block: aligned (R80, R81) and in the map (R85). Any other reads 0 or is
ignored, busy or not: a misaligned one by R81 (log 10), one beyond the map by I6, since the block does not decode it
(log 11). -/
def selects (P : Params) (off : Nat) : Bool := inMap P off && decide (off % 4 = 0)

/-- A host read (R80, R81, R84, R85, R88). It changes nothing but the model's own record of the reply. While BUSY = 1 a
read of anything but STATUS, ID and VERSION returns a free value (log 6). -/
def hostReadWith (P : Params) (off : Nat) (s : State) : Host.Outcome State Fault Refusal :=
  if !selects P off then .next { s with readData := 0 }
  else if s.status.busy && !(targetOf off).readableWhileBusy then
    .next { s with readData := Config.busyRead s.draws, draws := s.draws + 1 }
  else .next { s with readData := s.readTarget (targetOf off) }

/-- A host write (R80, R81, R85, R88). While BUSY = 1 every write but one to STATUS is ignored and sets WBUSY. -/
def hostWriteWith (P : Params) (off : Nat) (v : Word) (s : State) : Host.Outcome State Fault Refusal :=
  if !selects P off then .next s
  else if s.status.busy && decide (targetOf off ≠ .status) then
    .next { s with status := { s.status with wbusy := true } }
  else .next (s.writeTarget (targetOf off) v)

/-- A host read of this instance. -/
def hostRead (off : Nat) (s : State) : Host.Outcome State Fault Refusal := hostReadWith Config.params off s

/-- A host write to this instance. -/
def hostWrite (off : Nat) (v : Word) (s : State) : Host.Outcome State Fault Refusal := hostWriteWith Config.params off v s

end Sys2Proof.Machine
end

