-- ==== Sys2Proof/Machine/Cipher.lean ====
section
/-! DEFINITION. The cipher port (R90, R91) and the pure functions of AES-CM (R130-R135), key derivation (R160-R163) and
AES-F8 (R180-R187). -/

namespace Sys2Proof.Machine

/-- What a call of the cipher port is for (R91). -/
inductive Use where
  | direct
  | ivBuilding
  | keyDerivation
  deriving DecidableEq, Repr

/-- The PURPOSE that a call carries (R91). -/
structure Purpose where
  use : Use
  cls : Cls
  dir : Dir
  deriving DecidableEq, Repr

/-- PURPOSE = 4·use + 2·cls + dir, one of 12 values (R91). -/
def Purpose.value (p : Purpose) : Nat :=
  4 * (match p.use with | .direct => 0 | .ivBuilding => 1 | .keyDerivation => 2)
    + 2 * (match p.cls with | .rtp => 0 | .rtcp => 1)
    + (match p.dir with | .encrypt => 0 | .decrypt => 1)

/-- A call of the cipher port. It carries a PURPOSE, which affects no result because E is pure (R91, log 15). -/
def encryptBlock (P : Params) (_purpose : Purpose) (key : List Byte) (b : Block) : Block := P.cipher key b

/-- The cipher port accepts a key of `len` bytes when 8·len ∈ CIPHER_KEY_BITS (R91). -/
def keyAccepted (P : Params) (len : Byte) : Bool := P.keyBitsOk (8 * len.toNat)

/-- XOR of two blocks. -/
def xorBlock (a b : Block) : Block := fit 16 (xorBytes a.toList b.toList)

/-- R130. -/
def saltAlign14 (salt : List Byte) : List Byte :=
  if salt.length ≤ 14 then zeros (14 - salt.length) ++ salt else salt.drop (salt.length - 14)

/-- R131. -/
def cmIvRtp (salt : List Byte) (ssrc : BitVec 32) (index : BitVec 48) : Block :=
  fit 16 (putAt
    (xorAt (xorAt (saltAlign14 salt ++ zeros 2) 4 (beBytes 4 ssrc.toNat)) 8 (beBytes 6 index.toNat))
    14 (zeros 2))

/-- R132. -/
def cmIvRtcp (salt : List Byte) (ssrc : BitVec 32) (index31 : BitVec 31) : Block :=
  fit 16 (xorAt (xorAt (saltAlign14 salt ++ zeros 2) 4 (beBytes 4 ssrc.toNat)) 10 (beBytes 4 index31.toNat))

/-- R133: bytes 14-15 replaced by the 16-bit block number. -/
def ctrBlock (iv : Block) (j : Nat) : Block := fit 16 (iv.toList.take 14 ++ beBytes 2 (j % 65536))

/-- Blocks `j`, `j+1`, ... of the AES-CM keystream, `nb` of them (R134). -/
def cmBlocks (P : Params) (pu : Purpose) (key : List Byte) (iv : Block) (j : Nat) : Nat → List Byte
  | 0 => []
  | nb + 1 => (encryptBlock P pu key (ctrBlock iv j)).toList ++ cmBlocks P pu key iv (j + 1) nb

/-- R134. -/
def cmKeystream (P : Params) (pu : Purpose) (key : List Byte) (iv : Block) (n : Nat) : List Byte :=
  (cmBlocks P pu key iv 0 (ceilDiv n 16)).take n

/-- R135. -/
def cmXor (P : Params) (pu : Purpose) (key : List Byte) (iv : Block) (data : List Byte) : List Byte :=
  xorBytes data (cmKeystream P pu key iv data.length)

/-- R160. -/
def kdfR (index : Nat) (kdr : Word) : Nat := if kdr = 0 then 0 else index / kdr.toNat

/-- The width of r in bytes (R161). -/
def RWidth.bytes : RWidth → Nat
  | .four => 4
  | .six => 6

/-- R161. -/
def keyId (label : Byte) (r : Nat) (w : RWidth) : List Byte :=
  zeros (13 - RWidth.bytes w) ++ [label] ++ beBytes (RWidth.bytes w) r ++ zeros 2

/-- R162. -/
def kdfIv (label : Byte) (r : Nat) (w : RWidth) (msalt : List Byte) : Block :=
  fit 16 (xorBytes (keyId label r w) (saltAlign14 msalt ++ zeros 2))

/-- R163. -/
def kdf (P : Params) (pu : Purpose) (label : Byte) (n : Nat) (mkey msalt : List Byte) (kdr : Word) (index : Nat) (w : RWidth) :
    List Byte :=
  cmKeystream P pu mkey (kdfIv label (kdfR index kdr) w msalt) n

/-- F8IvRtpFromHeader (R180). -/
def f8IvRtp (hdr : List Byte) (roc : BitVec 32) : Block :=
  fit 16 ([0] ++ slice hdr 1 11 ++ beBytes 4 roc.toNat)

/-- e·2^31 + index31, the SRTCP trailer word (R181, R218). -/
def trailerWord (e : Bool) (index31 : BitVec 31) : Word := (BitVec.ofBool e ++ index31 : BitVec (1 + 31))

/-- F8IvRtcp (R181, R182): the layout is the parameter F8_RTCP_IV_LAYOUT. -/
def f8IvRtcp (P : Params) (e : Bool) (index31 : BitVec 31) (hdr : List Byte) : Block :=
  match P.f8RtcpLayout with
  | .doc => fit 16 (beBytes 4 (trailerWord e index31).toNat ++ slice hdr 0 8 ++ zeros 4)
  | .rfc3711 => fit 16 (zeros 4 ++ beBytes 4 (trailerWord e index31).toNat ++ slice hdr 0 8)

/-- R183. -/
def f8Mask (salt : List Byte) (kl : Nat) : List Byte := (salt ++ List.replicate kl 0x55).take kl

/-- R184. -/
def f8MaskedKey (key salt : List Byte) : List Byte := xorBytes key (f8Mask salt key.length)

/-- R185. -/
def f8IvPrime (P : Params) (pu : Purpose) (iv : Block) (key salt : List Byte) : Block :=
  encryptBlock P pu (f8MaskedKey key salt) iv

/-- R186. -/
def f8J (j : Nat) : Block := fit 16 (zeros 14 ++ beBytes 2 (j % 65536))

/-- S(j), the keystream block (R187). -/
def f8KeystreamBlock (P : Params) (pu : Purpose) (key : List Byte) (ivp : Block) (j : Nat) (fb : Block) : Block :=
  encryptBlock P pu key (xorBlock (xorBlock ivp (f8J j)) fb)

/-- What is chained into the next block (R187): the keystream block, or the ciphertext block, which is the output block on
encryption and the input block on decryption. -/
def f8Chain (P : Params) (dir : Dir) (keystream : Block) (input output : List Byte) : Block :=
  match P.f8Feedback with
  | .keystream => keystream
  | .ciphertext => match dir with
    | .encrypt => fit 16 output
    | .decrypt => fit 16 input

/-- The loop of F8Process (R187) from block `j` with chaining value `fb`, for `nb` blocks. -/
def f8Blocks (P : Params) (pu : Purpose) (key : List Byte) (ivp : Block) (dir : Dir) (j : Nat) (fb : Block)
    (data : List Byte) : Nat → List Byte
  | 0 => []
  | nb + 1 =>
    let keystream := f8KeystreamBlock P pu key ivp j fb
    let input := data.take 16
    let output := xorBytes input (keystream.toList.take input.length)
    output ++ f8Blocks P pu key ivp dir (j + 1) (f8Chain P dir keystream input output) (data.drop 16) nb

/-- F8Process (R187): S(-1) = 0. -/
def f8Process (P : Params) (pu : Purpose) (key : List Byte) (ivp : Block) (data : List Byte) (dir : Dir) : List Byte :=
  f8Blocks P pu key ivp dir 0 (fit 16 (zeros 16)) data (ceilDiv data.length 16)

end Sys2Proof.Machine
end

