-- ==== Sys2Proof/Machine/Cm.lean ====
section
/-! DEFINITION. The AES-CM commands CM_IV_RTP, CM_IV_RTCP and CM_XOR (R140-R142). -/

namespace Sys2Proof.Machine

/-- The checks of CM_IV_RTP and CM_IV_RTCP (R140, R141): a salt, and a header image of `header` bytes. -/
def cmIvChecks (P : Params) (s : State) (header : Nat) : List Check :=
  [(decide (s.saltLen = 0), .nullArgument),
   (decide (16 < s.saltLen.toNat), .badParameter),
   (decide (s.packetLen < header) || decide (P.pktCap < s.packetLen), .badParameter)]

/-- CM_IV_RTP over any parameters (R140). -/
def cmIvRtpWith (P : Params) (s : State) : Host.Outcome State Fault Refusal :=
  runCommand s (cmIvChecks P s 12) { s with ivreg := cmIvRtp s.saltBytes s.rtpSsrc s.idx }

/-- CM_IV_RTP (R140). -/
def execCmIvRtp (s : State) : Host.Outcome State Fault Refusal := cmIvRtpWith Config.params s

/-- CM_IV_RTCP over any parameters (R141). -/
def cmIvRtcpWith (P : Params) (s : State) : Host.Outcome State Fault Refusal :=
  runCommand s (cmIvChecks P s 8) { s with ivreg := cmIvRtcp s.saltBytes s.rtcpSsrc s.index31 }

/-- CM_IV_RTCP (R141). -/
def execCmIvRtcp (s : State) : Host.Outcome State Fault Refusal := cmIvRtcpWith Config.params s

/-- The checks of CM_XOR (R142). -/
def cmXorChecks (P : Params) (s : State) : List Check :=
  [(decide (s.ekeyLen = 0), .nullArgument),
   (decide (32 < s.ekeyLen.toNat), .badParameter),
   (decide (P.pktCap < s.boff.toNat + s.blen.toNat), .badParameter),
   (!keyAccepted P s.ekeyLen, .failed)]

/-- CM_XOR over any parameters (R142). -/
def cmXorWith (P : Params) (dir : Dir) (cls : Cls) (s : State) : Host.Outcome State Fault Refusal :=
  runCommand s (cmXorChecks P s)
    { s with
      pkt := s.pkt.store s.boff.toNat
        (cmXor P ⟨.direct, cls, dir⟩ s.ekeyBytes s.ivreg (s.pkt.load s.boff.toNat s.blen.toNat)) }

/-- CM_XOR (R142). -/
def execCmXor (dir : Dir) (cls : Cls) (s : State) : Host.Outcome State Fault Refusal := cmXorWith Config.params dir cls s

end Sys2Proof.Machine
end

