-- ==== Sys2Proof/Machine/Control.lean ====
section
/-! DEFINITION. The control command NOP (R260). -/

namespace Sys2Proof.Machine

/-- NOP (R260): completes with OK and does nothing else. -/
def execNop (s : State) : Host.Outcome State Fault Refusal := runCommand s [] s

end Sys2Proof.Machine
end

