-- ==== Sys2Proof/Machine/F8.lean ====
section
/-! DEFINITION. The AES-F8 commands F8_IV_RTP, F8_IV_RTCP, F8_IVPRIME and F8_XOR (R190-R193). -/

namespace Sys2Proof.Machine

/-- The check of F8_IV_RTP and F8_IV_RTCP (R190, R191): a header image of `header` bytes. -/
def f8IvChecks (P : Params) (s : State) (header : Nat) : List Check :=
  [(decide (s.packetLen < header) || decide (P.pktCap < s.packetLen), .badParameter)]

/-- F8_IV_RTP over any parameters (R190). -/
def f8IvRtpWith (P : Params) (s : State) : Host.Outcome State Fault Refusal :=
  runCommand s (f8IvChecks P s 12) { s with ivreg := f8IvRtp s.rtpHeader s.roc }

/-- F8_IV_RTP (R190). -/
def execF8IvRtp (s : State) : Host.Outcome State Fault Refusal := f8IvRtpWith Config.params s

/-- F8_IV_RTCP over any parameters (R191). -/
def f8IvRtcpWith (P : Params) (s : State) : Host.Outcome State Fault Refusal :=
  runCommand s (f8IvChecks P s 8) { s with ivreg := f8IvRtcp P s.idxE s.index31 s.rtcpHeader }

/-- F8_IV_RTCP (R191). -/
def execF8IvRtcp (s : State) : Host.Outcome State Fault Refusal := f8IvRtcpWith Config.params s

/-- The checks that F8_IVPRIME and F8_XOR begin with (R192, R193). -/
def f8KeyChecks (s : State) : List Check :=
  [(decide (s.ekeyLen = 0) || decide (s.saltLen = 0), .nullArgument),
   (decide (32 < s.ekeyLen.toNat) || decide (16 < s.saltLen.toNat), .badParameter)]

/-- IV′ of F8_IVPRIME and F8_XOR (R192, R193). -/
def State.ivPrime (P : Params) (s : State) (dir : Dir) (cls : Cls) : Block :=
  f8IvPrime P ⟨.ivBuilding, cls, dir⟩ s.ivreg s.ekeyBytes s.saltBytes

/-- F8_IVPRIME over any parameters (R192). -/
def f8IvPrimeWith (P : Params) (dir : Dir) (cls : Cls) (s : State) : Host.Outcome State Fault Refusal :=
  runCommand s (f8KeyChecks s ++ [(!keyAccepted P s.ekeyLen, .failed)]) { s with ivpreg := s.ivPrime P dir cls }

/-- F8_IVPRIME (R192). -/
def execF8IvPrime (dir : Dir) (cls : Cls) (s : State) : Host.Outcome State Fault Refusal :=
  f8IvPrimeWith Config.params dir cls s

/-- F8_XOR over any parameters (R193). -/
def f8XorWith (P : Params) (dir : Dir) (cls : Cls) (s : State) : Host.Outcome State Fault Refusal :=
  runCommand s
    (f8KeyChecks s ++
      [(decide (P.pktCap < s.boff.toNat + s.blen.toNat), .badParameter), (!keyAccepted P s.ekeyLen, .failed)])
    { s with
      ivpreg := s.ivPrime P dir cls
      pkt := s.pkt.store s.boff.toNat
        (f8Process P ⟨.direct, cls, dir⟩ s.ekeyBytes (s.ivPrime P dir cls) (s.pkt.load s.boff.toNat s.blen.toNat) dir) }

/-- F8_XOR (R193). -/
def execF8Xor (dir : Dir) (cls : Cls) (s : State) : Host.Outcome State Fault Refusal := f8XorWith Config.params dir cls s

end Sys2Proof.Machine
end

