-- ==== Sys2Proof/Machine/Kdf.lean ====
section
/-! DEFINITION. The key-derivation commands KDF_RTP and KDF_RTCP (R164-R166). -/

namespace Sys2Proof.Machine

/-- BLEN is not legal for the destination (R164, R165). -/
def kdfBadLength (P : Params) (s : State) (dest : Dest) : Bool :=
  match dest with
  | .pkt => decide (P.pktCap < s.boff.toNat + s.blen.toNat)
  | d => decide (s.blen = 0) || decide (Dest.windowSize d < s.blen.toNat)

/-- The checks of both KDF commands (R165, R166). -/
def kdfChecks (P : Params) (s : State) (dest : Dest) : List Check :=
  [(decide (s.mkeyLen = 0) || decide (s.msaltLen = 0), .nullArgument),
   (decide (32 < s.mkeyLen.toNat), .badParameter),
   (decide (16 < s.msaltLen.toNat), .badParameter),
   (decide (2 ^ 24 < s.kdr.toNat), .badParameter),
   (kdfBadLength P s dest, .badParameter),
   (!keyAccepted P s.mkeyLen, .failed)]

/-- Where the derived bytes go (R164). -/
def State.putDerived (s : State) (dest : Dest) (out : List Byte) : State :=
  match dest with
  | .ekey => { s with ekey := putWindow s.ekey 0 out, ekeyLen := s.blen.setWidth 8 }
  | .akey => { s with akey := putWindow s.akey 0 out, akeyLen := s.blen.setWidth 8 }
  | .salt => { s with salt := putWindow s.salt 0 out, saltLen := s.blen.setWidth 8 }
  | .pkt => { s with pkt := s.pkt.store s.boff.toNat out }

/-- The derived bytes of a KDF command (R163, R165, R166). -/
def State.derived (P : Params) (s : State) (cls : Cls) (dir : Dir) (label : Byte) (index : Nat) (w : RWidth) : List Byte :=
  kdf P ⟨.keyDerivation, cls, dir⟩ label s.blen.toNat s.mkeyBytes s.msaltBytes s.kdr index w

/-- A KDF command over any parameters: R165 with the class's index and r width. A DEST of 4-7 is an illegal word and
completes with ILLEGAL_COMMAND (R104 (d), R105, log 17). -/
def kdfWith (P : Params) (cls : Cls) (dir : Dir) (label : Byte) (dest : BitVec 3) (index : Nat) (w : RWidth) (s : State) :
    Host.Outcome State Fault Refusal :=
  match destOf dest with
  | none => .next (s.complete .illegalCommand)
  | some d => runCommand s (kdfChecks P s d) (s.putDerived d (s.derived P cls dir label index w))

/-- KDF_RTP over any parameters (R165). -/
def kdfRtpWith (P : Params) (dir : Dir) (label : Byte) (dest : BitVec 3) (s : State) : Host.Outcome State Fault Refusal :=
  kdfWith P .rtp dir label dest s.idx.toNat .six s

/-- KDF_RTP (R165). -/
def execKdfRtp (dir : Dir) (label : Byte) (dest : BitVec 3) (s : State) : Host.Outcome State Fault Refusal :=
  kdfRtpWith Config.params dir label dest s

/-- KDF_RTCP over any parameters (R166). -/
def kdfRtcpWith (P : Params) (dir : Dir) (label : Byte) (dest : BitVec 3) (s : State) : Host.Outcome State Fault Refusal :=
  kdfWith P .rtcp dir label dest s.index31.toNat P.kdfRtcpRWidth s

/-- KDF_RTCP (R166). -/
def execKdfRtcp (dir : Dir) (label : Byte) (dest : BitVec 3) (s : State) : Host.Outcome State Fault Refusal :=
  kdfRtcpWith Config.params dir label dest s

end Sys2Proof.Machine
end

