-- ==== Sys2Proof/Machine/Framer.lean ====
section
/-! DEFINITION. What the six framer commands share: configuration checks (R214), the payload transform (R215), the tag
(R216), and the result registers (R50). -/

namespace Sys2Proof.Machine

/-- FrCheckFull (R214). -/
def frCheckFull (P : Params) (s : State) (c : Cfg) : List Check :=
  [(c.encrypts && (decide (s.ekeyLen = 0) || decide (s.saltLen = 0)), .nullArgument),
   (decide (c.auth ≠ 0) && decide (s.akeyLen = 0), .nullArgument),
   (decide (c.enc = 3) || decide (c.prefixLen ≠ 0), .badParameter),
   (c.mkiEn && decide (16 < c.mkiLen.toNat), .badParameter),
   (c.encrypts && (decide (32 < s.ekeyLen.toNat) || decide (16 < s.saltLen.toNat)), .badParameter),
   (decide (c.auth ≠ 0) && decide (64 < s.akeyLen.toNat), .badParameter),
   (decide (P.pktCap < s.packetLen), .badParameter),
   (c.encrypts && !keyAccepted P s.ekeyLen, .failed),
   (decide (c.auth ≠ 0) && !P.macOk c.auth s.akeyLen.toNat c.t, .failed)]

/-- FrCheckParse (R214). -/
def frCheckParse (P : Params) (s : State) (c : Cfg) : List Check :=
  [(c.mkiEn && decide (16 < c.mkiLen.toNat), .badParameter),
   (decide (P.pktCap < s.packetLen), .badParameter)]

/-- PayloadXform (R215), given the IV that each cipher would use. ENC = 3 never comes here: R214 refuses it first (log 16). -/
def payloadXform (P : Params) (alg : Enc) (cls : Cls) (dir : Dir) (key salt : List Byte) (cmIv f8Iv : Block)
    (data : List Byte) : List Byte :=
  match alg with
  | .none => data
  | .aesCm => cmXor P ⟨.direct, cls, dir⟩ key cmIv data
  | .aesF8 => f8Process P ⟨.direct, cls, dir⟩ key (f8IvPrime P ⟨.ivBuilding, cls, dir⟩ f8Iv key salt) data dir
  | .reserved => data

/-- PayloadXform of the SRTP commands (R215, cls = 0). -/
def State.srtpXform (P : Params) (s : State) (dir : Dir) (data : List Byte) : List Byte :=
  payloadXform P s.cfgRtp.alg .rtp dir s.ekeyBytes s.saltBytes
    (cmIvRtp s.saltBytes s.rtpSsrc s.rtpIndex) (f8IvRtp s.rtpHeader (s.rtpIndex.extractLsb' 16 32)) data

/-- PayloadXform of the SRTCP commands (R215, cls = 1). -/
def State.srtcpXform (P : Params) (s : State) (dir : Dir) (i31 : BitVec 31) (e : Bool) (data : List Byte) : List Byte :=
  payloadXform P s.cfgRtcp.alg .rtcp dir s.ekeyBytes s.saltBytes
    (cmIvRtcp s.saltBytes s.rtcpSsrc i31) (f8IvRtcp P e i31 s.rtcpHeader) data

/-- Tag(C, msg) (R216); with AUTH = 0 the MAC port is not called and there is no tag (R93). -/
def authTag (P : Params) (c : Cfg) (akey msg : List Byte) : List Byte :=
  if c.auth = 0 then [] else (P.mac c.auth akey msg c.t).toList

/-- AuthMsgSrtp(Lb, roc) over the packet `p` (R216). -/
def authMsgSrtp (p : Memory) (lb : Nat) (roc : BitVec 32) : List Byte := p.load 0 lb ++ beBytes 4 roc.toNat

/-- AuthMsgSrtcp(Lb) over the packet `p` (R216). -/
def authMsgSrtcp (p : Memory) (lb : Nat) : List Byte := p.load 0 lb

/-- The result registers of an SRTP command (R50, R51): E = 0. -/
def srtpResults (c : Cfg) (hdr pay mkiOff tagOff : Nat) (index : BitVec 48) : Results where
  hdrLen := BitVec.ofNat 16 hdr
  payLen := BitVec.ofNat 16 pay
  mkiOff := BitVec.ofNat 16 mkiOff
  tagOff := BitVec.ofNat 16 tagOff
  idxLo := index.extractLsb' 0 32
  idxHi := index.extractLsb' 32 16
  flags := framerFlags c false

/-- The result registers of an SRTCP command (R50, R51): RES_IDX_LO holds the trailer word and RES_IDX_HI is 0. -/
def srtcpResults (c : Cfg) (pay mkiOff tagOff : Nat) (trailer : Word) : Results where
  hdrLen := 8
  payLen := BitVec.ofNat 16 pay
  mkiOff := BitVec.ofNat 16 mkiOff
  tagOff := BitVec.ofNat 16 tagOff
  idxLo := trailer
  idxHi := 0
  flags := framerFlags c (trailer.getLsbD 31)

/-- A received MKI in RX_MKI: its m bytes, then zeros (R47). -/
def rxMkiOf (mki : List Byte) : Vector Byte 16 := fit 16 mki

/-- The end of the packet before MKI and tag: Lb = L − m − t (R219). -/
def State.footerStart (s : State) (c : Cfg) : Nat := s.packetLen - c.m - c.t

/-- The received tag differs from the computed one (R221, R231); never when AUTH = 0. -/
def tagMismatch (P : Params) (s : State) (c : Cfg) (msg : List Byte) : Bool :=
  decide (c.auth ≠ 0) && decide (authTag P c s.akeyBytes msg ≠ s.pkt.load (s.footerStart c + c.m) c.t)

end Sys2Proof.Machine
end

