-- ==== Sys2Proof/Machine/Srtcp.lean ====
section
/-! DEFINITION. SRTCP_PROTECT, SRTCP_UNPROTECT and SRTCP_PARSE (R230-R232). -/

namespace Sys2Proof.Machine

/-- The checks of SRTCP_PROTECT (R230). -/
def srtcpProtectChecks (P : Params) (s : State) : List Check :=
  frCheckFull P s s.cfgRtcp ++
    [(decide (P.pktCap - s.packetLen < 4 + s.cfgRtcp.m + s.cfgRtcp.t), .insufficientBufferSpace),
     (decide (s.packetLen < 8), .badParameter)]

/-- The E bit that SRTCP_PROTECT writes: 1 when ENC ≠ 0 (R230). -/
def State.srtcpE (s : State) : Bool := decide (s.cfgRtcp.enc ≠ 0)

/-- The trailer word that SRTCP_PROTECT writes (R230). -/
def State.srtcpTrailerOut (s : State) : Word := trailerWord s.srtcpE s.index31

/-- PKT after the cipher, the trailer word and the MKI of SRTCP_PROTECT (R230). -/
def State.srtcpProtectedBody (P : Params) (s : State) : Memory :=
  ((s.pkt.store 8 (s.srtcpXform P .encrypt s.index31 s.srtcpE (s.pkt.load 8 (s.packetLen - 8)))).store s.packetLen
    (beBytes 4 s.srtcpTrailerOut.toNat)).store (s.packetLen + 4) (s.mki.toList.take s.cfgRtcp.m)

/-- The tag of SRTCP_PROTECT, over the encrypted packet with its trailer word (R216, R230). -/
def State.srtcpTag (P : Params) (s : State) : List Byte :=
  authTag P s.cfgRtcp s.akeyBytes (authMsgSrtcp (s.srtcpProtectedBody P) (s.packetLen + 4))

/-- The writes of SRTCP_PROTECT (R230). -/
def State.srtcpProtected (P : Params) (s : State) : State :=
  { s with
    pkt := (s.srtcpProtectedBody P).store (s.packetLen + 4 + s.cfgRtcp.m) (s.srtcpTag P)
    pktLen := BitVec.ofNat 16 (s.packetLen + 4 + s.cfgRtcp.m + s.cfgRtcp.t)
    res := srtcpResults s.cfgRtcp (s.packetLen - 8) (s.packetLen + 4) (s.packetLen + 4 + s.cfgRtcp.m) s.srtcpTrailerOut }

/-- SRTCP_PROTECT over any parameters (R230). -/
def srtcpProtectWith (P : Params) (s : State) : Host.Outcome State Fault Refusal :=
  runCommand s (srtcpProtectChecks P s) (s.srtcpProtected P)

/-- SRTCP_PROTECT (R230). -/
def execSrtcpProtect (s : State) : Host.Outcome State Fault Refusal := srtcpProtectWith Config.params s

/-- A received SRTCP packet is shorter than 12 + m + t bytes (R219, R231, R232). -/
def State.srtcpTooShort (s : State) : Bool := decide (s.packetLen < 12 + s.cfgRtcp.m + s.cfgRtcp.t)

/-- The trailer word found in a received packet, PKT[Lb−4 .. Lb) (R219, R231). -/
def State.srtcpTrailerIn (s : State) : Word :=
  BitVec.ofNat 32 (beRead (s.pkt.load (s.footerStart s.cfgRtcp - 4) 4))

/-- The received E bit (R231). -/
def State.srtcpEIn (s : State) : Bool := s.srtcpTrailerIn.getLsbD 31

/-- The received 31-bit index (R231). -/
def State.srtcpIndexIn (s : State) : BitVec 31 := s.srtcpTrailerIn.extractLsb' 0 31

/-- The checks of SRTCP_UNPROTECT (R231): E = 1 without a cipher is refused after the tag check. -/
def srtcpUnprotectChecks (P : Params) (s : State) : List Check :=
  frCheckFull P s s.cfgRtcp ++
    [(s.srtcpTooShort, .badParameter),
     (tagMismatch P s s.cfgRtcp (authMsgSrtcp s.pkt (s.footerStart s.cfgRtcp)), .authFailure),
     (s.srtcpEIn && decide (s.cfgRtcp.enc = 0), .badParameter)]

/-- What SRTCP_UNPROTECT and SRTCP_PARSE report (R231, R232): RX_MKI and RES_*. -/
def State.srtcpReport (s : State) : State :=
  { s with
    rxMki := rxMkiOf (s.pkt.load (s.footerStart s.cfgRtcp) s.cfgRtcp.m)
    res := srtcpResults s.cfgRtcp (s.footerStart s.cfgRtcp - 12) (s.footerStart s.cfgRtcp)
      (s.footerStart s.cfgRtcp + s.cfgRtcp.m) s.srtcpTrailerIn }

/-- PKT after SRTCP_UNPROTECT (R231): the payload is decrypted exactly when the received E is 1. -/
def State.srtcpClear (P : Params) (s : State) : Memory :=
  if s.srtcpEIn then
    s.pkt.store 8 (s.srtcpXform P .decrypt s.srtcpIndexIn true (s.pkt.load 8 (s.footerStart s.cfgRtcp - 4 - 8)))
  else s.pkt

/-- The writes of SRTCP_UNPROTECT (R231). -/
def State.srtcpUnprotected (P : Params) (s : State) : State :=
  { s.srtcpReport with
    pkt := s.srtcpClear P
    pktLen := BitVec.ofNat 16 (s.footerStart s.cfgRtcp - 4) }

/-- SRTCP_UNPROTECT over any parameters (R231). -/
def srtcpUnprotectWith (P : Params) (s : State) : Host.Outcome State Fault Refusal :=
  runCommand s (srtcpUnprotectChecks P s) (s.srtcpUnprotected P)

/-- SRTCP_UNPROTECT (R231). -/
def execSrtcpUnprotect (s : State) : Host.Outcome State Fault Refusal := srtcpUnprotectWith Config.params s

/-- The checks of SRTCP_PARSE (R232). -/
def srtcpParseChecks (P : Params) (s : State) : List Check :=
  frCheckParse P s s.cfgRtcp ++ [(s.srtcpTooShort, .badParameter)]

/-- SRTCP_PARSE over any parameters (R232). -/
def srtcpParseWith (P : Params) (s : State) : Host.Outcome State Fault Refusal :=
  runCommand s (srtcpParseChecks P s) s.srtcpReport

/-- SRTCP_PARSE (R232). -/
def execSrtcpParse (s : State) : Host.Outcome State Fault Refusal := srtcpParseWith Config.params s

end Sys2Proof.Machine
end

