-- ==== Sys2Proof/Machine/Srtp.lean ====
section
/-! DEFINITION. SRTP_PROTECT, SRTP_UNPROTECT and SRTP_PARSE (R220-R222). -/

namespace Sys2Proof.Machine

/-- The checks of SRTP_PROTECT (R220). -/
def srtpProtectChecks (P : Params) (s : State) : List Check :=
  frCheckFull P s s.cfgRtp ++
    [(decide (P.pktCap - s.packetLen < s.cfgRtp.m + s.cfgRtp.t), .insufficientBufferSpace),
     ((rtpHdrLen s.pkt s.packetLen).isNone, .badParameter)]

/-- PKT after RunCipher and AppendMKI of SRTP_PROTECT (R220); `h` is the header length. -/
def State.srtpProtectedBody (P : Params) (s : State) (h : Nat) : Memory :=
  (s.pkt.store h (s.srtpXform P .encrypt (s.pkt.load h (s.packetLen - h)))).store s.packetLen
    (s.mki.toList.take s.cfgRtp.m)

/-- The tag of SRTP_PROTECT, over the encrypted packet and the ROC (R216, R220). -/
def State.srtpTag (P : Params) (s : State) (h : Nat) : List Byte :=
  authTag P s.cfgRtp s.akeyBytes (authMsgSrtp (s.srtpProtectedBody P h) s.packetLen s.roc)

/-- The writes of SRTP_PROTECT (R220). -/
def State.srtpProtected (P : Params) (s : State) (h : Nat) : State :=
  { s with
    pkt := (s.srtpProtectedBody P h).store (s.packetLen + s.cfgRtp.m) (s.srtpTag P h)
    pktLen := BitVec.ofNat 16 (s.packetLen + s.cfgRtp.m + s.cfgRtp.t)
    res := srtpResults s.cfgRtp h (s.packetLen - h) s.packetLen (s.packetLen + s.cfgRtp.m) s.rtpIndex }

/-- SRTP_PROTECT over any parameters (R220). -/
def srtpProtectWith (P : Params) (s : State) : Host.Outcome State Fault Refusal :=
  runCommand s (srtpProtectChecks P s) (s.srtpProtected P (rtpHdrLenOr0 s.pkt s.packetLen))

/-- SRTP_PROTECT (R220). -/
def execSrtpProtect (s : State) : Host.Outcome State Fault Refusal := srtpProtectWith Config.params s

/-- A received SRTP packet is shorter than 12 + m + t bytes (R219, R221, R222). -/
def State.srtpTooShort (s : State) : Bool := decide (s.packetLen < 12 + s.cfgRtp.m + s.cfgRtp.t)

/-- The checks of SRTP_UNPROTECT (R221): the tag is verified before the header is parsed. -/
def srtpUnprotectChecks (P : Params) (s : State) : List Check :=
  frCheckFull P s s.cfgRtp ++
    [(s.srtpTooShort, .badParameter),
     (tagMismatch P s s.cfgRtp (authMsgSrtp s.pkt (s.footerStart s.cfgRtp) s.roc), .authFailure),
     ((rtpHdrLen s.pkt (s.footerStart s.cfgRtp)).isNone, .badParameter)]

/-- What SRTP_UNPROTECT and SRTP_PARSE report (R221, R222): RX_MKI and RES_*. -/
def State.srtpReport (s : State) (h : Nat) : State :=
  { s with
    rxMki := rxMkiOf (s.pkt.load (s.footerStart s.cfgRtp) s.cfgRtp.m)
    res := srtpResults s.cfgRtp h (s.footerStart s.cfgRtp - h) (s.footerStart s.cfgRtp)
      (s.footerStart s.cfgRtp + s.cfgRtp.m) s.rtpIndex }

/-- The writes of SRTP_UNPROTECT (R221): the footer's bytes stay in PKT, beyond the new PKT_LEN. -/
def State.srtpUnprotected (P : Params) (s : State) (h : Nat) : State :=
  { s.srtpReport h with
    pkt := s.pkt.store h (s.srtpXform P .decrypt (s.pkt.load h (s.footerStart s.cfgRtp - h)))
    pktLen := BitVec.ofNat 16 (s.footerStart s.cfgRtp) }

/-- SRTP_UNPROTECT over any parameters (R221). -/
def srtpUnprotectWith (P : Params) (s : State) : Host.Outcome State Fault Refusal :=
  runCommand s (srtpUnprotectChecks P s) (s.srtpUnprotected P (rtpHdrLenOr0 s.pkt (s.footerStart s.cfgRtp)))

/-- SRTP_UNPROTECT (R221). -/
def execSrtpUnprotect (s : State) : Host.Outcome State Fault Refusal := srtpUnprotectWith Config.params s

/-- The checks of SRTP_PARSE (R222). -/
def srtpParseChecks (P : Params) (s : State) : List Check :=
  frCheckParse P s s.cfgRtp ++
    [(s.srtpTooShort, .badParameter), ((rtpHdrLen s.pkt (s.footerStart s.cfgRtp)).isNone, .badParameter)]

/-- SRTP_PARSE over any parameters (R222). -/
def srtpParseWith (P : Params) (s : State) : Host.Outcome State Fault Refusal :=
  runCommand s (srtpParseChecks P s) (s.srtpReport (rtpHdrLenOr0 s.pkt (s.footerStart s.cfgRtp)))

/-- SRTP_PARSE (R222). -/
def execSrtpParse (s : State) : Host.Outcome State Fault Refusal := srtpParseWith Config.params s

end Sys2Proof.Machine
end

