-- ==== Sys2Proof/Machine/Dispatch.lean ====
section
/-! DEFINITION. One arm for each command (R105). -/

namespace Sys2Proof.Machine

def exec (i : Instr) (s : State) : Host.Outcome State Fault Refusal :=
  match i with
  | .nop => Sys2Proof.Machine.execNop s
  | .cmIvRtp => Sys2Proof.Machine.execCmIvRtp s
  | .cmIvRtcp => Sys2Proof.Machine.execCmIvRtcp s
  | .cmXor dir cls => Sys2Proof.Machine.execCmXor dir cls s
  | .kdfRtp dir label dest => Sys2Proof.Machine.execKdfRtp dir label dest s
  | .kdfRtcp dir label dest => Sys2Proof.Machine.execKdfRtcp dir label dest s
  | .f8IvRtp => Sys2Proof.Machine.execF8IvRtp s
  | .f8IvRtcp => Sys2Proof.Machine.execF8IvRtcp s
  | .f8IvPrime dir cls => Sys2Proof.Machine.execF8IvPrime dir cls s
  | .f8Xor dir cls => Sys2Proof.Machine.execF8Xor dir cls s
  | .srtpProtect => Sys2Proof.Machine.execSrtpProtect s
  | .srtpUnprotect => Sys2Proof.Machine.execSrtpUnprotect s
  | .srtpParse => Sys2Proof.Machine.execSrtpParse s
  | .srtcpProtect => Sys2Proof.Machine.execSrtcpProtect s
  | .srtcpUnprotect => Sys2Proof.Machine.execSrtcpUnprotect s
  | .srtcpParse => Sys2Proof.Machine.execSrtcpParse s

end Sys2Proof.Machine
end

