-- ==== Sys2Proof/Machine/Engine.lean ====
section
/-! DEFINITION. The engine's turn (R53, R87, R105) and one event of the schedule (R89). -/

namespace Sys2Proof.Machine

/-- The command word the engine runs: `pending`, decoded (R105). -/
def State.fetch (s : State) : Except Illegal Instr := decode s.pending

/-- The engine's turn (R53, R105). BUSY: it runs `pending`, and an illegal word completes with ILLEGAL_COMMAND.
IDLE: it does nothing (R291). -/
def engineTurn (s : State) : Host.Outcome State Fault Refusal :=
  match s.mode with
  | .idle => .next s
  | .busy => match s.fetch with
    | .ok i => exec i s
    | .error _ => .next (s.complete .illegalCommand)

/-- One event (R30, R89): a host access, a hard reset (R300), or the engine's turn. -/
def runEvent (e : Event) (s : State) : Host.Outcome State Fault Refusal :=
  match e with
  | .hostRead off => hostRead off s
  | .hostWrite off w => hostWrite off w s
  | .hardReset ram => .next (s.hardReset Config.params ram)
  | .engineTurn => engineTurn s

/-- The next event: the oldest of the schedule, or the engine's turn when none is left (log 7). -/
def State.nextEvent (s : State) : Event := s.schedule.headD .engineTurn

/-- The state with its next event taken off the schedule. -/
def State.popEvent (s : State) : State := { s with schedule := s.schedule.tail }

/-- Put the command word `w` where the engine's next turn takes it: an accepted CMD write (R36), and the engine's turn
before anything else of the schedule (log 8). -/
def State.loadCommand (s : State) (w : Word) : State :=
  { s.accept w with schedule := .engineTurn :: s.schedule }

end Sys2Proof.Machine
end

