-- ==== Sys2Proof/Machine/Step.lean ====
section
/-! DEFINITION. One step of the machine, and a command placed where the next step runs it. -/

namespace Sys2Proof.Machine

/-- One step: the next event of the schedule takes effect (R87, R89). -/
def step (s : State) : Host.Outcome State Fault Refusal := runEvent s.nextEvent s.popEvent

/-- `s` with a command word, numbered as spec/opcode_table.json numbers it, where the very next step runs it (log 8). -/
def State.withFetchWord (s : State) (nbits w : Nat) : State := s.loadCommand (tableWord nbits w)

end Sys2Proof.Machine
end

