-- ==== Sys2Proof/Safety.lean ====
section
/-! DEFINITION. The terms that the claims are stated in: the invariant, the opcode table, the illegal words, when a command is
ready to run, which code it reports, and what a successful completion leaves alone. -/

namespace Sys2Proof.Machine

/-- The invariant of the block. BUSY = 1 exactly when the engine is busy (R53); while it is busy, CMD holds the pending word
(R36, R53); PKT's list is canonical and lists no offset outside the buffer (R52, R86); STATUS.CODE is a code the block
produces (R271). -/
structure Inv (s : State) : Prop where
  busyMode : s.status.busy = true ↔ s.mode = .busy
  cmdPending : s.mode = .busy → s.cmd = s.pending
  canonical : s.pkt.wf = true
  inBuffer : s.pkt.below Config.params.pktCap = true
  codeProduced : s.status.code.produced = true

/-- The rows of spec/opcode_table.json as (match, mask) (R106). -/
def commandTable : List (Word × Word) :=
  [(0x00, 0xFFFFFFFF), (0x01, 0xFFFFFFFF), (0x02, 0xFFFFFFFF), (0x03, 0xFFFFFCFF), (0x04, 0xFC00FEFF), (0x05, 0xFC00FEFF),
   (0x08, 0xFFFFFFFF), (0x09, 0xFFFFFFFF)] ++
  [(0x0A, 0xFFFFFCFF), (0x0B, 0xFFFFFCFF), (0x10, 0xFFFFFFFF), (0x11, 0xFFFFFFFF), (0x12, 0xFFFFFFFF), (0x14, 0xFFFFFFFF),
   (0x15, 0xFFFFFFFF), (0x16, 0xFFFFFFFF)]

/-- The OP values of the commands that use no field (R103). -/
def plainOps : List Byte := [0x00, 0x01, 0x02, 0x08, 0x09, 0x10, 0x11, 0x12, 0x14, 0x15, 0x16]

/-- The OP values of the commands that use DIR and CLS (R103). -/
def dirClsOps : List Byte := [0x03, 0x0A, 0x0B]

/-- The OP values of the commands that use DIR, LABEL and DEST (R103). -/
def kdfOps : List Byte := [0x04, 0x05]

/-- An illegal command word: (a), (b), (c) or (d) of R104, by the word's bits. -/
def IllegalWord (w : Word) : Prop :=
  w.extractLsb' 0 8 ∉ plainOps ++ dirClsOps ++ kdfOps
  ∨ (w.extractLsb' 10 6 ≠ 0 ∨ w.extractLsb' 27 5 ≠ 0)
  ∨ (w.extractLsb' 0 8 ∈ plainOps ∧ (w.extractLsb' 8 2 ≠ 0 ∨ w.extractLsb' 16 11 ≠ 0))
  ∨ (w.extractLsb' 0 8 ∈ dirClsOps ∧ w.extractLsb' 16 11 ≠ 0)
  ∨ (w.extractLsb' 0 8 ∈ kdfOps ∧ w.getLsbD 9 = true)
  ∨ (w.extractLsb' 0 8 ∈ kdfOps ∧ w.getLsbD 26 = true)

/-- STATUS and the mode after a completion with code `c` (R274): `t` against the state `s` before it. -/
def CompletedWith (c : Code) (s t : State) : Prop :=
  t.mode = .idle ∧ t.status = ⟨false, true, s.status.wbusy, c, s.cmd.extractLsb' 0 8⟩

/-- The command runs, completes with code `c`, and changes nothing but STATUS and the mode if `c` is not OK (R274). -/
def Reports (i : Instr) (s : State) (c : Code) : Prop :=
  ∃ t, exec i s = .next t ∧ CompletedWith c s t ∧
    (c ≠ .ok → t = { s with mode := .idle, status := ⟨false, true, s.status.wbusy, c, s.cmd.extractLsb' 0 8⟩ })

/-! Each condition below is over any parameters (`…With`), and then of this instance. -/

/-- The cipher port accepts a key of `len` bytes: 8·len ∈ CIPHER_KEY_BITS (R91). -/
abbrev KeySizeAcceptedWith (P : Params) (len : Byte) : Prop := P.keyBitsOk (8 * len.toNat) = true

/-- PKT[0 .. PKT_LEN) lies in the buffer. -/
abbrev PacketFitsWith (P : Params) (s : State) : Prop := s.pktLen.toNat ≤ P.pktCap

/-- PKT[BOFF .. BOFF+BLEN) lies in the buffer (R142, R164, R193). -/
abbrev RangeFitsWith (P : Params) (s : State) : Prop := s.boff.toNat + s.blen.toNat ≤ P.pktCap

/-- EKEY is loaded, not longer than its window, and of a size the cipher port accepts. -/
abbrev EkeyReadyWith (P : Params) (s : State) : Prop := s.ekeyLen ≠ 0 ∧ s.ekeyLen.toNat ≤ 32 ∧ KeySizeAcceptedWith P s.ekeyLen

/-- SALT is loaded and not longer than its window. -/
abbrev SaltReady (s : State) : Prop := s.saltLen ≠ 0 ∧ s.saltLen.toNat ≤ 16

/-- Master key, master salt and derivation rate are in the ranges of R165. -/
abbrev MasterReadyWith (P : Params) (s : State) : Prop :=
  s.mkeyLen ≠ 0 ∧ s.msaltLen ≠ 0 ∧ s.mkeyLen.toNat ≤ 32 ∧ s.msaltLen.toNat ≤ 16 ∧ s.kdr.toNat ≤ 2 ^ 24 ∧
    KeySizeAcceptedWith P s.mkeyLen

/-- No check of FrCheckFull applies (R214). -/
abbrev FramerReadyWith (P : Params) (c : Cfg) (s : State) : Prop :=
  c.enc ≠ 3 ∧ c.prefixLen = 0 ∧ (c.mkiEn = true → c.mkiLen.toNat ≤ 16) ∧ PacketFitsWith P s ∧
    (c.enc = 1 ∨ c.enc = 2 → EkeyReadyWith P s ∧ SaltReady s) ∧
    (c.auth ≠ 0 → s.akeyLen ≠ 0 ∧ s.akeyLen.toNat ≤ 64 ∧ P.macOk c.auth s.akeyLen.toNat c.t = true)

/-- The packet found in PKT authenticates under `msg`, or the class has no authentication (R221, R231). -/
abbrev TagMatchesWith (P : Params) (c : Cfg) (s : State) (msg : List Byte) : Prop :=
  c.auth = 0 ∨ (P.mac c.auth (s.akey.toList.take s.akeyLen.toNat) msg c.t).toList = s.pkt.load (s.pktLen.toNat - c.t) c.t

/-- `KeySizeAcceptedWith` of this instance. -/
abbrev KeySizeAccepted (len : Byte) : Prop := KeySizeAcceptedWith Config.params len

/-- `PacketFitsWith` of this instance. -/
abbrev PacketFits (s : State) : Prop := PacketFitsWith Config.params s

/-- `RangeFitsWith` of this instance. -/
abbrev RangeFits (s : State) : Prop := RangeFitsWith Config.params s

/-- `EkeyReadyWith` of this instance. -/
abbrev EkeyReady (s : State) : Prop := EkeyReadyWith Config.params s

/-- `MasterReadyWith` of this instance. -/
abbrev MasterReady (s : State) : Prop := MasterReadyWith Config.params s

/-- `FramerReadyWith` of this instance. -/
abbrev FramerReady (c : Cfg) (s : State) : Prop := FramerReadyWith Config.params c s

/-- `TagMatchesWith` of this instance. -/
abbrev TagMatches (c : Cfg) (s : State) (msg : List Byte) : Prop := TagMatchesWith Config.params c s msg

/-- The code FrCheckFull raises, if it raises one: the first that applies (R214). -/
def framerCode (c : Cfg) (s : State) : Option Code :=
  if (c.enc = 1 ∨ c.enc = 2) ∧ (s.ekeyLen = 0 ∨ s.saltLen = 0) then some .nullArgument
  else if c.auth ≠ 0 ∧ s.akeyLen = 0 then some .nullArgument
  else if c.enc = 3 ∨ c.prefixLen ≠ 0 then some .badParameter
  else if c.mkiEn = true ∧ 16 < c.mkiLen.toNat then some .badParameter
  else if (c.enc = 1 ∨ c.enc = 2) ∧ (32 < s.ekeyLen.toNat ∨ 16 < s.saltLen.toNat) then some .badParameter
  else if c.auth ≠ 0 ∧ 64 < s.akeyLen.toNat then some .badParameter
  else if Config.params.pktCap < s.pktLen.toNat then some .badParameter
  else if (c.enc = 1 ∨ c.enc = 2) ∧ Config.params.keyBitsOk (8 * s.ekeyLen.toNat) = false then some .failed
  else if c.auth ≠ 0 ∧ Config.params.macOk c.auth s.akeyLen.toNat c.t = false then some .failed
  else none

/-- The code FrCheckParse raises, if it raises one (R214). -/
def parseCode (c : Cfg) (s : State) : Option Code :=
  if c.mkiEn = true ∧ 16 < c.mkiLen.toNat then some .badParameter
  else if Config.params.pktCap < s.pktLen.toNat then some .badParameter
  else none

/-- What the result registers of an SRTP command say (R50, R51, R220-R222). -/
def SrtpResultsAre (r : Results) (c : Cfg) (hdr pay mkiOff tagOff : Nat) (roc : BitVec 32) (seq : Nat) : Prop :=
  r.hdrLen.toNat = hdr ∧ r.payLen.toNat = pay ∧ r.mkiOff.toNat = mkiOff ∧ r.tagOff.toNat = tagOff ∧
    r.idxHi.toNat * 2 ^ 32 + r.idxLo.toNat = roc.toNat * 2 ^ 16 + seq ∧
    r.flags = ⟨false, c.mkiEn, decide (c.auth ≠ 0)⟩

/-- What the result registers of an SRTCP command say (R50, R51, R230-R232). -/
def SrtcpResultsAre (r : Results) (c : Cfg) (pay mkiOff tagOff : Nat) (trailer : Word) : Prop :=
  r.hdrLen.toNat = 8 ∧ r.payLen.toNat = pay ∧ r.mkiOff.toNat = mkiOff ∧ r.tagOff.toNat = tagOff ∧
    r.idxLo = trailer ∧ r.idxHi = 0 ∧ r.flags = ⟨trailer.getLsbD 31, c.mkiEn, decide (c.auth ≠ 0)⟩

/-- The state without what the model adds to the block: the reply to the last read and the count of draws. -/
def State.block (s : State) : State := { s with readData := 0, draws := 0 }

/-- An offset of the register map at which an access is aligned (R80, R85). -/
def AlignedInMap (off : Nat) : Prop := off % 4 = 0 ∧ (off < 0x1000 ∨ off - 0x1000 < Config.params.pktCap)

end Sys2Proof.Machine
end

