-- ==== Sys2Proof/Certificates/Slice0/Obligations.lean ====
section
/-! DEFINITION. The statements for the provers, one `def Obligations.<Name> : Prop` each; OBLIGATIONS.json lists them. -/

open Sys2Proof Sys2Proof.Machine

/-! ### Encoding -/

/-- Decoding the word of a well-formed command gives the command back, with every operand. -/
def Obligations.DecodeOfEncodeIsTheCommand : Prop :=
  ∀ i : Instr, i.wf = true → decode (encode i) = .ok i

/-- A word that decodes is the word of a well-formed command: each command has one word. -/
def Obligations.EncodeOfDecodeIsTheWord : Prop :=
  ∀ (w : Word) (i : Instr), decode w = .ok i → i.wf = true ∧ encode i = w

/-- R106: a word selects a row when (w & mask) = match; the rows are disjoint and their union is the set of legal words. -/
def Obligations.LegalWordsAreTheTableRows : Prop :=
  (∀ w : Word, (∃ i, decode w = .ok i) ↔ ∃ r ∈ commandTable, w &&& r.2 = r.1) ∧
  (∀ (w : Word) (i : Instr), decode w = .ok i → (i.opcode.setWidth 32, i.mask) ∈ commandTable ∧ w &&& i.mask = i.opcode.setWidth 32) ∧
  (∀ w : Word, ∀ r ∈ commandTable, ∀ r' ∈ commandTable, w &&& r.2 = r.1 → w &&& r'.2 = r'.1 → r = r')

/-- R104: which words are illegal; such a word is accepted by CMD like any other, and completes with ILLEGAL_COMMAND and
changes nothing else. -/
def Obligations.IllegalWordsCompleteWithIllegalCommand : Prop :=
  (∀ w : Word, IllegalWord w ↔ ∃ e, decode w = .error e) ∧
  (∀ (s : State) (w : Word), IllegalWord w → s.status.busy = false → hostWrite 0x010 w s = .next (s.accept w)) ∧
  (∀ s : State, IllegalWord s.pending → s.mode = .busy →
    engineTurn s = .next { s with
      mode := .idle
      status := ⟨false, true, s.status.wbusy, .illegalCommand, s.cmd.extractLsb' 0 8⟩ })

/-- Words written out from R101 and R103 decode to the commands they stand for. -/
def Obligations.SampleWordsDecode : Prop :=
  decode 0x00000000 = .ok .nop ∧ decode 0x00000001 = .ok .cmIvRtp ∧
  decode 0x00000303 = .ok (.cmXor .decrypt .rtcp) ∧ decode 0x02020004 = .ok (.kdfRtp .encrypt 0x02 2) ∧
  decode 0x00030005 = .ok (.kdfRtcp .encrypt 0x03 0) ∧ decode 0x0000010B = .ok (.f8Xor .decrypt .rtp) ∧
  decode 0x00000014 = .ok .srtcpProtect ∧ decode 0x04000004 = .error .reservedDest ∧
  decode 0x00000204 = .error .unusedField ∧ decode 0x00000013 = .error .unassignedOp

/-! ### The step -/

/-- What a step is, for each event that can be next, with that event taken off the schedule (logs 7 and 8): the engine's turn runs
the decoded pending word; an idle engine's turn does nothing more (R291, log 20); a host access is `hostRead` or `hostWrite`; a hard
reset is the one of HardResetLeavesTheSpecValues, and keeps the rest of the schedule (log 19). A command placed by `withFetchWord`
is what the very next step runs. -/
def Obligations.StepRunsTheDecodedCommand : Prop :=
  (∀ (s : State) (i : Instr), s.nextEvent = .engineTurn → s.mode = .busy → decode s.pending = .ok i →
    step s = exec i { s with schedule := s.schedule.tail }) ∧
  (∀ s : State, s.nextEvent = .engineTurn → s.mode = .idle → step s = .next { s with schedule := s.schedule.tail }) ∧
  (∀ (s : State) (off : Nat), s.nextEvent = .hostRead off → step s = hostRead off { s with schedule := s.schedule.tail }) ∧
  (∀ (s : State) (off : Nat) (w : Word), s.nextEvent = .hostWrite off w →
    step s = hostWrite off w { s with schedule := s.schedule.tail }) ∧
  (∀ (s : State) (ram : Ram), s.nextEvent = .hardReset ram → ∃ t, step s = .next t ∧
    runEvent (.hardReset ram) { s with schedule := s.schedule.tail } = .next t ∧ t.schedule = s.schedule.tail) ∧
  (∀ (s : State) (nbits w : Nat) (i : Instr), decodeTableWord nbits w = some i →
    step (s.withFetchWord nbits w) = exec i (s.accept (BitVec.ofNat 32 (w % 2 ^ nbits))))

/-- A command word that the host writes while BUSY = 0 runs at the engine's turn, after any host accesses before it that
only set WBUSY: here one ignored register write (R53, R88, R89). -/
def Obligations.WrittenCommandRunsAtTheEnginesTurn : Prop :=
  ∀ (s : State) (w v : Word) (off : Nat) (i : Instr) (rest : List Event),
    s.status.busy = false → decode w = .ok i → AlignedInMap off → off ≠ 0x00C →
    s.schedule = .hostWrite 0x010 w :: .hostWrite off v :: .engineTurn :: rest →
    ∃ t u, step s = .next t ∧ step t = .next u ∧
      u = { s with
        cmd := w
        pending := w
        mode := .busy
        status := ⟨true, s.status.done, true, s.status.code, s.status.lastop⟩
        schedule := .engineTurn :: rest } ∧
      step u = exec i { u with schedule := rest }

/-! ### Reset and invariant -/

/-- R300: after a hard reset, whatever the RAMs hold (log 5). -/
def Obligations.HardResetLeavesTheSpecValues : Prop :=
  ∀ (s : State) (ram : Ram), ∃ t, runEvent (.hardReset ram) s = .next t ∧
    t.readTarget .id = 0x53525450 ∧ t.readTarget .version = 1 ∧ t.ie = false ∧
    t.status = ⟨false, false, false, .ok, 0⟩ ∧ t.cmd = 0 ∧
    t.pktLen = 0 ∧ t.boff = 0 ∧ t.blen = 0 ∧ t.idxLo = 0 ∧ t.idxHi = 0 ∧ t.kdr = 0 ∧
    t.readTarget .cfgRtp = 0 ∧ t.readTarget .cfgRtcp = 0 ∧
    t.mkeyLen = 0 ∧ t.msaltLen = 0 ∧ t.ekeyLen = 0 ∧ t.akeyLen = 0 ∧ t.saltLen = 0 ∧
    t.res.hdrLen = 0 ∧ t.res.payLen = 0 ∧ t.res.mkiOff = 0 ∧ t.res.tagOff = 0 ∧ t.res.idxLo = 0 ∧ t.res.idxHi = 0 ∧
    t.readTarget .resFlags = 0 ∧
    t.rxMki.toList = List.replicate 16 0 ∧ t.ivreg.toList = List.replicate 16 0 ∧ t.ivpreg.toList = List.replicate 16 0 ∧
    t.mkey = ram.mkey ∧ t.msalt = ram.msalt ∧ t.ekey = ram.ekey ∧ t.salt = ram.salt ∧ t.akey = ram.akey ∧ t.mki = ram.mki ∧
    (∀ a, a < Config.params.pktCap → ∀ h : a < ram.pkt.length, t.pkt.read a = ram.pkt[a]) ∧
    t.mode = .idle ∧ t.pending = 0 ∧ t.irq = false

/-- R301: the soft reset; while BUSY = 1 the write is ignored and sets WBUSY. What `pending` becomes is left open here (log 13);
that the model's own fields `schedule`, `readData` and `draws` stay is the model's choice (log 19). -/
def Obligations.SoftResetKeepsTheWindows : Prop :=
  (∀ (s : State) (v : Word), v.getLsbD 1 = true → s.status.busy = false →
    ∃ t, hostWrite 0x008 v s = .next t ∧
      t = { State.reset with
        mkey := s.mkey
        msalt := s.msalt
        ekey := s.ekey
        salt := s.salt
        akey := s.akey
        mki := s.mki
        pkt := s.pkt
        pending := t.pending
        schedule := s.schedule
        readData := s.readData
        draws := s.draws } ∧
      t.mkeyLen = 0 ∧ t.msaltLen = 0 ∧ t.ekeyLen = 0 ∧ t.akeyLen = 0 ∧ t.saltLen = 0 ∧
      t.ivreg.toList = List.replicate 16 0 ∧ t.ivpreg.toList = List.replicate 16 0 ∧ t.rxMki.toList = List.replicate 16 0 ∧
      t.readTarget .status = 0 ∧ t.mode = .idle ∧ t.irq = false) ∧
  (∀ (s : State) (v : Word), s.status.busy = true →
    hostWrite 0x008 v s = .next { s with status := { s.status with wbusy := true } })

/-- The state after reset meets the invariant. -/
def Obligations.ResetMeetsTheInvariant : Prop := Inv State.reset

/-- Every step keeps the invariant, from every state that meets it, whatever the schedule holds: BUSY agrees with the engine's
mode, no access puts a byte outside the packet buffer, the buffer's list stays canonical, STATUS.CODE is a code of the block. -/
def Obligations.EveryStepKeepsTheInvariant : Prop :=
  ∀ s t : State, Inv s → step s = .next t → Inv t

/-- The block never stops: every step, from every state and with every event next, answers a next state (R81, R85, R270; that no
command hangs is log 18, and what an access beyond the map does is log 11). -/
def Obligations.EveryStepAnswersANextState : Prop :=
  ∀ s : State, ∃ t, step s = .next t

/-! ### Completion and frames of all commands -/

/-- For every command, and for every word the engine may find pending, legal or not: it completes (R270, R87), and if its
code is not OK nothing but STATUS and the engine's mode changed (R274). That no command hangs is log 18, and that a KDF with
a DEST of 4-7, which no word gives, completes as the illegal word it would stand for is log 17. -/
def Obligations.EveryCommandCompletesAndErrorsChangeOnlyStatus : Prop :=
  (∀ (i : Instr) (s : State), ∃ c, Reports i s c) ∧
  (∀ s : State, s.mode = .busy → ∃ t, engineTurn s = .next t ∧ CompletedWith t.status.code s t ∧
    (t.status.code ≠ .ok → t = { s with
      mode := .idle
      status := ⟨false, true, s.status.wbusy, t.status.code, s.cmd.extractLsb' 0 8⟩ }))

/-- Which codes each legal command can complete with (R277). -/
def Obligations.CommandsReportOnlyTheirCodes : Prop :=
  ∀ (i : Instr) (s t : State), i.wf = true → exec i s = .next t →
    (i.opcode = 0x00 → t.status.code = .ok) ∧
    (i.opcode ∈ [0x08, 0x09, 0x12, 0x16] → t.status.code ∈ [.ok, .badParameter]) ∧
    (i.opcode ∈ [0x01, 0x02] → t.status.code ∈ [.ok, .nullArgument, .badParameter]) ∧
    (i.opcode ∈ [0x03, 0x04, 0x05, 0x0A, 0x0B] → t.status.code ∈ [.ok, .nullArgument, .badParameter, .failed]) ∧
    (i.opcode ∈ [0x10, 0x14] → t.status.code ∈ [.ok, .nullArgument, .badParameter, .failed, .insufficientBufferSpace]) ∧
    (i.opcode ∈ [0x11, 0x15] → t.status.code ∈ [.ok, .nullArgument, .badParameter, .failed, .authFailure])

/-- The frame of all commands: which registers no command writes, and which commands alone write each of the others, and PKT
(R30-R58 and the commands' "flags written"). That no command writes BOFF settles R38's "Only commands write it" (log 12). -/
def Obligations.OnlyTheNamedCommandsWriteEachRegister : Prop :=
  ∀ (i : Instr) (s t : State), exec i s = .next t →
    (t.ie = s.ie ∧ t.status.wbusy = s.status.wbusy ∧ t.cmd = s.cmd ∧ t.pending = s.pending ∧ t.boff = s.boff ∧ t.blen = s.blen ∧
      t.idxLo = s.idxLo ∧ t.idxHi = s.idxHi ∧ t.kdr = s.kdr ∧ t.cfgRtp = s.cfgRtp ∧ t.cfgRtcp = s.cfgRtcp ∧
      t.mkeyLen = s.mkeyLen ∧ t.msaltLen = s.msaltLen ∧ t.mkey = s.mkey ∧ t.msalt = s.msalt ∧ t.mki = s.mki ∧
      t.schedule = s.schedule ∧ t.readData = s.readData ∧ t.draws = s.draws) ∧
    (i.opcode ∉ [0x01, 0x02, 0x08, 0x09] → t.ivreg = s.ivreg) ∧
    (i.opcode ∉ [0x0A, 0x0B] → t.ivpreg = s.ivpreg) ∧
    (i.opcode ∉ [0x04, 0x05] → t.ekey = s.ekey ∧ t.salt = s.salt ∧ t.akey = s.akey ∧
      t.ekeyLen = s.ekeyLen ∧ t.saltLen = s.saltLen ∧ t.akeyLen = s.akeyLen) ∧
    (i.opcode ∉ [0x11, 0x12, 0x15, 0x16] → t.rxMki = s.rxMki) ∧
    (i.opcode ∉ [0x10, 0x11, 0x12, 0x14, 0x15, 0x16] → t.res = s.res) ∧
    (i.opcode ∉ [0x10, 0x11, 0x14, 0x15] → t.pktLen = s.pktLen) ∧
    (i.opcode ∉ [0x03, 0x04, 0x05, 0x0B, 0x10, 0x11, 0x14, 0x15] → ∀ a, t.pkt.read a = s.pkt.read a)

/-! ### The commands, one by one: their words, result, frame, and the code they report -/

/-- R260. -/
def Obligations.NopCompletesAndDoesNothingElse : Prop :=
  decode 0x00000000 = .ok .nop ∧
  (∀ w : Word, w.extractLsb' 0 8 = 0 → w ≠ 0 → ∃ e, decode w = .error e) ∧
  (∀ s : State, exec .nop s = .next { s with
    mode := .idle
    status := ⟨false, true, s.status.wbusy, .ok, s.cmd.extractLsb' 0 8⟩ })

/-- R140. -/
def Obligations.CmIvRtpBuildsTheIv : Prop :=
  decode 0x00000001 = .ok .cmIvRtp ∧
  (∀ s : State, SaltReady s → PacketFits s → 12 ≤ s.pktLen.toNat →
    ∃ t, exec .cmIvRtp s = .next t ∧ CompletedWith .ok s t ∧
      t.ivreg = cmIvRtp (s.salt.toList.take s.saltLen.toNat) (BitVec.ofNat 32 (beRead (s.pkt.load 8 4))) (s.idxHi ++ s.idxLo) ∧
      t = { s with ivreg := t.ivreg, mode := t.mode, status := t.status }) ∧
  (∀ s : State, Reports .cmIvRtp s (
    if s.saltLen = 0 then .nullArgument
    else if 16 < s.saltLen.toNat then .badParameter
    else if Config.params.pktCap < s.pktLen.toNat ∨ s.pktLen.toNat < 12 then .badParameter
    else .ok))

/-- R141. -/
def Obligations.CmIvRtcpBuildsTheIv : Prop :=
  decode 0x00000002 = .ok .cmIvRtcp ∧
  (∀ s : State, SaltReady s → PacketFits s → 8 ≤ s.pktLen.toNat →
    ∃ t, exec .cmIvRtcp s = .next t ∧ CompletedWith .ok s t ∧
      t.ivreg = cmIvRtcp (s.salt.toList.take s.saltLen.toNat) (BitVec.ofNat 32 (beRead (s.pkt.load 4 4)))
        (s.idxLo.extractLsb' 0 31) ∧
      t = { s with ivreg := t.ivreg, mode := t.mode, status := t.status }) ∧
  (∀ s : State, Reports .cmIvRtcp s (
    if s.saltLen = 0 then .nullArgument
    else if 16 < s.saltLen.toNat then .badParameter
    else if Config.params.pktCap < s.pktLen.toNat ∨ s.pktLen.toNat < 8 then .badParameter
    else .ok))

/-- R142. -/
def Obligations.CmXorTransformsTheRange : Prop :=
  (decode 0x00000003 = .ok (.cmXor .encrypt .rtp) ∧ decode 0x00000103 = .ok (.cmXor .decrypt .rtp) ∧
    decode 0x00000203 = .ok (.cmXor .encrypt .rtcp) ∧ decode 0x00000303 = .ok (.cmXor .decrypt .rtcp)) ∧
  (∀ (s : State) (dir : Dir) (cls : Cls), s.pkt.wf = true → EkeyReady s → RangeFits s →
    ∃ t, exec (.cmXor dir cls) s = .next t ∧ CompletedWith .ok s t ∧
      t.pkt.load s.boff.toNat s.blen.toNat =
        cmXor Config.params ⟨.direct, cls, dir⟩ (s.ekey.toList.take s.ekeyLen.toNat) s.ivreg (s.pkt.load s.boff.toNat s.blen.toNat) ∧
      (∀ a, a < s.boff.toNat ∨ s.boff.toNat + s.blen.toNat ≤ a → t.pkt.read a = s.pkt.read a) ∧
      t = { s with pkt := t.pkt, mode := t.mode, status := t.status }) ∧
  (∀ (s : State) (dir : Dir) (cls : Cls), Reports (.cmXor dir cls) s (
    if s.ekeyLen = 0 then .nullArgument
    else if 32 < s.ekeyLen.toNat then .badParameter
    else if Config.params.pktCap < s.boff.toNat + s.blen.toNat then .badParameter
    else if Config.params.keyBitsOk (8 * s.ekeyLen.toNat) = false then .failed
    else .ok))

/-- R165, with the destinations of R164; a DEST of 4-7 is an illegal word (R104 (d), log 17). -/
def Obligations.KdfRtpDerivesToTheDestination : Prop :=
  (∀ (s : State) (dir : Dir) (label : Byte) (out : List Byte), s.pkt.wf = true → MasterReady s →
    out = kdf Config.params ⟨.keyDerivation, .rtp, dir⟩ label s.blen.toNat (s.mkey.toList.take s.mkeyLen.toNat)
      (s.msalt.toList.take s.msaltLen.toNat) s.kdr (s.idxHi.toNat * 2 ^ 32 + s.idxLo.toNat) .six →
    (1 ≤ s.blen.toNat → s.blen.toNat ≤ 32 → ∃ t, exec (.kdfRtp dir label 0) s = .next t ∧ CompletedWith .ok s t ∧
      t.ekey.toList = out ++ s.ekey.toList.drop s.blen.toNat ∧ t.ekeyLen.toNat = s.blen.toNat ∧
      t = { s with ekey := t.ekey, ekeyLen := t.ekeyLen, mode := t.mode, status := t.status }) ∧
    (1 ≤ s.blen.toNat → s.blen.toNat ≤ 64 → ∃ t, exec (.kdfRtp dir label 1) s = .next t ∧ CompletedWith .ok s t ∧
      t.akey.toList = out ++ s.akey.toList.drop s.blen.toNat ∧ t.akeyLen.toNat = s.blen.toNat ∧
      t = { s with akey := t.akey, akeyLen := t.akeyLen, mode := t.mode, status := t.status }) ∧
    (1 ≤ s.blen.toNat → s.blen.toNat ≤ 16 → ∃ t, exec (.kdfRtp dir label 2) s = .next t ∧ CompletedWith .ok s t ∧
      t.salt.toList = out ++ s.salt.toList.drop s.blen.toNat ∧ t.saltLen.toNat = s.blen.toNat ∧
      t = { s with salt := t.salt, saltLen := t.saltLen, mode := t.mode, status := t.status }) ∧
    (RangeFits s → ∃ t, exec (.kdfRtp dir label 3) s = .next t ∧ CompletedWith .ok s t ∧
      t.pkt.load s.boff.toNat s.blen.toNat = out ∧
      (∀ a, a < s.boff.toNat ∨ s.boff.toNat + s.blen.toNat ≤ a → t.pkt.read a = s.pkt.read a) ∧
      t = { s with pkt := t.pkt, mode := t.mode, status := t.status })) ∧
  (∀ (s : State) (dir : Dir) (label : Byte) (dest : BitVec 3), Reports (.kdfRtp dir label dest) s (
    if 4 ≤ dest.toNat then .illegalCommand
    else if s.mkeyLen = 0 ∨ s.msaltLen = 0 then .nullArgument
    else if 32 < s.mkeyLen.toNat then .badParameter
    else if 16 < s.msaltLen.toNat then .badParameter
    else if 2 ^ 24 < s.kdr.toNat then .badParameter
    else if dest = 3 ∧ Config.params.pktCap < s.boff.toNat + s.blen.toNat then .badParameter
    else if dest = 0 ∧ (s.blen = 0 ∨ 32 < s.blen.toNat) then .badParameter
    else if dest = 1 ∧ (s.blen = 0 ∨ 64 < s.blen.toNat) then .badParameter
    else if dest = 2 ∧ (s.blen = 0 ∨ 16 < s.blen.toNat) then .badParameter
    else if Config.params.keyBitsOk (8 * s.mkeyLen.toNat) = false then .failed
    else .ok))

/-- R166, with the destinations of R164: index IDX[30:0], r of KDF_RTCP_R_BYTES bytes. -/
def Obligations.KdfRtcpDerivesToTheDestination : Prop :=
  (∀ (s : State) (dir : Dir) (label : Byte) (out : List Byte), s.pkt.wf = true → MasterReady s →
    out = kdf Config.params ⟨.keyDerivation, .rtcp, dir⟩ label s.blen.toNat (s.mkey.toList.take s.mkeyLen.toNat)
      (s.msalt.toList.take s.msaltLen.toNat) s.kdr (s.idxLo.toNat % 2 ^ 31) Config.params.kdfRtcpRWidth →
    (1 ≤ s.blen.toNat → s.blen.toNat ≤ 32 → ∃ t, exec (.kdfRtcp dir label 0) s = .next t ∧ CompletedWith .ok s t ∧
      t.ekey.toList = out ++ s.ekey.toList.drop s.blen.toNat ∧ t.ekeyLen.toNat = s.blen.toNat ∧
      t = { s with ekey := t.ekey, ekeyLen := t.ekeyLen, mode := t.mode, status := t.status }) ∧
    (1 ≤ s.blen.toNat → s.blen.toNat ≤ 64 → ∃ t, exec (.kdfRtcp dir label 1) s = .next t ∧ CompletedWith .ok s t ∧
      t.akey.toList = out ++ s.akey.toList.drop s.blen.toNat ∧ t.akeyLen.toNat = s.blen.toNat ∧
      t = { s with akey := t.akey, akeyLen := t.akeyLen, mode := t.mode, status := t.status }) ∧
    (1 ≤ s.blen.toNat → s.blen.toNat ≤ 16 → ∃ t, exec (.kdfRtcp dir label 2) s = .next t ∧ CompletedWith .ok s t ∧
      t.salt.toList = out ++ s.salt.toList.drop s.blen.toNat ∧ t.saltLen.toNat = s.blen.toNat ∧
      t = { s with salt := t.salt, saltLen := t.saltLen, mode := t.mode, status := t.status }) ∧
    (RangeFits s → ∃ t, exec (.kdfRtcp dir label 3) s = .next t ∧ CompletedWith .ok s t ∧
      t.pkt.load s.boff.toNat s.blen.toNat = out ∧
      (∀ a, a < s.boff.toNat ∨ s.boff.toNat + s.blen.toNat ≤ a → t.pkt.read a = s.pkt.read a) ∧
      t = { s with pkt := t.pkt, mode := t.mode, status := t.status })) ∧
  (∀ (s : State) (dir : Dir) (label : Byte) (dest : BitVec 3), Reports (.kdfRtcp dir label dest) s (
    if 4 ≤ dest.toNat then .illegalCommand
    else if s.mkeyLen = 0 ∨ s.msaltLen = 0 then .nullArgument
    else if 32 < s.mkeyLen.toNat then .badParameter
    else if 16 < s.msaltLen.toNat then .badParameter
    else if 2 ^ 24 < s.kdr.toNat then .badParameter
    else if dest = 3 ∧ Config.params.pktCap < s.boff.toNat + s.blen.toNat then .badParameter
    else if dest = 0 ∧ (s.blen = 0 ∨ 32 < s.blen.toNat) then .badParameter
    else if dest = 1 ∧ (s.blen = 0 ∨ 64 < s.blen.toNat) then .badParameter
    else if dest = 2 ∧ (s.blen = 0 ∨ 16 < s.blen.toNat) then .badParameter
    else if Config.params.keyBitsOk (8 * s.mkeyLen.toNat) = false then .failed
    else .ok))

/-- R190. -/
def Obligations.F8IvRtpBuildsTheIv : Prop :=
  decode 0x00000008 = .ok .f8IvRtp ∧
  (∀ s : State, PacketFits s → 12 ≤ s.pktLen.toNat →
    ∃ t, exec .f8IvRtp s = .next t ∧ CompletedWith .ok s t ∧
      t.ivreg.toList = [0] ++ s.pkt.load 1 11 ++ beBytes 4 ((s.idxHi.toNat * 2 ^ 32 + s.idxLo.toNat) / 2 ^ 16) ∧
      t = { s with ivreg := t.ivreg, mode := t.mode, status := t.status }) ∧
  (∀ s : State, Reports .f8IvRtp s (if Config.params.pktCap < s.pktLen.toNat ∨ s.pktLen.toNat < 12 then .badParameter else .ok))

/-- R191, with both layouts of R181 and R182. -/
def Obligations.F8IvRtcpBuildsTheIv : Prop :=
  decode 0x00000009 = .ok .f8IvRtcp ∧
  (∀ s : State, PacketFits s → 8 ≤ s.pktLen.toNat →
    ∃ t, exec .f8IvRtcp s = .next t ∧ CompletedWith .ok s t ∧
      t.ivreg.toList = (match Config.params.f8RtcpLayout with
        | .doc => beBytes 4 s.idxLo.toNat ++ s.pkt.load 0 8 ++ List.replicate 4 0
        | .rfc3711 => List.replicate 4 0 ++ beBytes 4 s.idxLo.toNat ++ s.pkt.load 0 8) ∧
      t = { s with ivreg := t.ivreg, mode := t.mode, status := t.status }) ∧
  (∀ s : State, Reports .f8IvRtcp s (if Config.params.pktCap < s.pktLen.toNat ∨ s.pktLen.toNat < 8 then .badParameter else .ok))

/-- R192. -/
def Obligations.F8IvPrimeComputesIvPrime : Prop :=
  (decode 0x0000000A = .ok (.f8IvPrime .encrypt .rtp) ∧ decode 0x0000010A = .ok (.f8IvPrime .decrypt .rtp) ∧
    decode 0x0000020A = .ok (.f8IvPrime .encrypt .rtcp) ∧ decode 0x0000030A = .ok (.f8IvPrime .decrypt .rtcp)) ∧
  (∀ (s : State) (dir : Dir) (cls : Cls), EkeyReady s → SaltReady s →
    ∃ t, exec (.f8IvPrime dir cls) s = .next t ∧ CompletedWith .ok s t ∧
      t.ivpreg = Config.params.cipher
        (xorBytes (s.ekey.toList.take s.ekeyLen.toNat) (f8Mask (s.salt.toList.take s.saltLen.toNat) s.ekeyLen.toNat)) s.ivreg ∧
      t = { s with ivpreg := t.ivpreg, mode := t.mode, status := t.status }) ∧
  (∀ (s : State) (dir : Dir) (cls : Cls), Reports (.f8IvPrime dir cls) s (
    if s.ekeyLen = 0 ∨ s.saltLen = 0 then .nullArgument
    else if 32 < s.ekeyLen.toNat ∨ 16 < s.saltLen.toNat then .badParameter
    else if Config.params.keyBitsOk (8 * s.ekeyLen.toNat) = false then .failed
    else .ok))

/-- R193. -/
def Obligations.F8XorTransformsTheRange : Prop :=
  (decode 0x0000000B = .ok (.f8Xor .encrypt .rtp) ∧ decode 0x0000010B = .ok (.f8Xor .decrypt .rtp) ∧
    decode 0x0000020B = .ok (.f8Xor .encrypt .rtcp) ∧ decode 0x0000030B = .ok (.f8Xor .decrypt .rtcp)) ∧
  (∀ (s : State) (dir : Dir) (cls : Cls), s.pkt.wf = true → EkeyReady s → SaltReady s → RangeFits s →
    ∃ t, exec (.f8Xor dir cls) s = .next t ∧ CompletedWith .ok s t ∧
      t.ivpreg = Config.params.cipher
        (xorBytes (s.ekey.toList.take s.ekeyLen.toNat) (f8Mask (s.salt.toList.take s.saltLen.toNat) s.ekeyLen.toNat)) s.ivreg ∧
      t.pkt.load s.boff.toNat s.blen.toNat =
        f8Process Config.params ⟨.direct, cls, dir⟩ (s.ekey.toList.take s.ekeyLen.toNat) t.ivpreg
          (s.pkt.load s.boff.toNat s.blen.toNat) dir ∧
      (∀ a, a < s.boff.toNat ∨ s.boff.toNat + s.blen.toNat ≤ a → t.pkt.read a = s.pkt.read a) ∧
      t = { s with ivpreg := t.ivpreg, pkt := t.pkt, mode := t.mode, status := t.status }) ∧
  (∀ (s : State) (dir : Dir) (cls : Cls), Reports (.f8Xor dir cls) s (
    if s.ekeyLen = 0 ∨ s.saltLen = 0 then .nullArgument
    else if 32 < s.ekeyLen.toNat ∨ 16 < s.saltLen.toNat then .badParameter
    else if Config.params.pktCap < s.boff.toNat + s.blen.toNat then .badParameter
    else if Config.params.keyBitsOk (8 * s.ekeyLen.toNat) = false then .failed
    else .ok))

/-- R220. -/
def Obligations.SrtpProtectFramesThePacket : Prop :=
  decode 0x00000010 = .ok .srtpProtect ∧
  (∀ (s : State) (h : Nat), s.pkt.wf = true → FramerReady s.cfgRtp s →
    s.cfgRtp.m + s.cfgRtp.t ≤ Config.params.pktCap - s.pktLen.toNat → rtpHdrLen s.pkt s.pktLen.toNat = some h →
    ∃ t, exec .srtpProtect s = .next t ∧ CompletedWith .ok s t ∧
      (∀ a, a < h → t.pkt.read a = s.pkt.read a) ∧
      t.pkt.load h (s.pktLen.toNat - h) = s.srtpXform Config.params .encrypt (s.pkt.load h (s.pktLen.toNat - h)) ∧
      t.pkt.load s.pktLen.toNat s.cfgRtp.m = s.mki.toList.take s.cfgRtp.m ∧
      TagMatches s.cfgRtp t (t.pkt.load 0 s.pktLen.toNat ++ beBytes 4 s.roc.toNat) ∧
      (∀ a, s.pktLen.toNat + s.cfgRtp.m + s.cfgRtp.t ≤ a → t.pkt.read a = s.pkt.read a) ∧
      t.pktLen.toNat = s.pktLen.toNat + s.cfgRtp.m + s.cfgRtp.t ∧
      SrtpResultsAre t.res s.cfgRtp h (s.pktLen.toNat - h) s.pktLen.toNat (s.pktLen.toNat + s.cfgRtp.m) s.roc
        (beRead (s.pkt.load 2 2)) ∧
      t = { s with pkt := t.pkt, pktLen := t.pktLen, res := t.res, mode := t.mode, status := t.status }) ∧
  (∀ s : State, Reports .srtpProtect s ((framerCode s.cfgRtp s).getD
    (if Config.params.pktCap - s.pktLen.toNat < s.cfgRtp.m + s.cfgRtp.t then .insufficientBufferSpace
    else if rtpHdrLen s.pkt s.pktLen.toNat = none then .badParameter
    else .ok)))

/-- R221. -/
def Obligations.SrtpUnprotectRestoresThePayload : Prop :=
  decode 0x00000011 = .ok .srtpUnprotect ∧
  (∀ (s : State) (h lb : Nat), s.pkt.wf = true → FramerReady s.cfgRtp s →
    12 + s.cfgRtp.m + s.cfgRtp.t ≤ s.pktLen.toNat → lb + s.cfgRtp.m + s.cfgRtp.t = s.pktLen.toNat →
    TagMatches s.cfgRtp s (s.pkt.load 0 lb ++ beBytes 4 s.roc.toNat) → rtpHdrLen s.pkt lb = some h →
    ∃ t, exec .srtpUnprotect s = .next t ∧ CompletedWith .ok s t ∧
      t.pkt.load h (lb - h) = s.srtpXform Config.params .decrypt (s.pkt.load h (lb - h)) ∧
      (∀ a, a < h ∨ lb ≤ a → t.pkt.read a = s.pkt.read a) ∧
      t.pktLen.toNat = lb ∧
      t.rxMki.toList = s.pkt.load lb s.cfgRtp.m ++ List.replicate (16 - s.cfgRtp.m) 0 ∧
      SrtpResultsAre t.res s.cfgRtp h (lb - h) lb (lb + s.cfgRtp.m) s.roc (beRead (s.pkt.load 2 2)) ∧
      t = { s with pkt := t.pkt, pktLen := t.pktLen, rxMki := t.rxMki, res := t.res, mode := t.mode, status := t.status }) ∧
  (∀ (s : State) (lb : Nat), lb = s.pktLen.toNat - s.cfgRtp.m - s.cfgRtp.t →
    Reports .srtpUnprotect s ((framerCode s.cfgRtp s).getD
      (if s.pktLen.toNat < 12 + s.cfgRtp.m + s.cfgRtp.t then .badParameter
      else if ¬ TagMatches s.cfgRtp s (s.pkt.load 0 lb ++ beBytes 4 s.roc.toNat) then .authFailure
      else if rtpHdrLen s.pkt lb = none then .badParameter
      else .ok)))

/-- R222. -/
def Obligations.SrtpParseLocatesTheFooter : Prop :=
  decode 0x00000012 = .ok .srtpParse ∧
  (∀ (s : State) (h lb : Nat), (s.cfgRtp.mkiEn = true → s.cfgRtp.mkiLen.toNat ≤ 16) → PacketFits s →
    12 + s.cfgRtp.m + s.cfgRtp.t ≤ s.pktLen.toNat → lb + s.cfgRtp.m + s.cfgRtp.t = s.pktLen.toNat →
    rtpHdrLen s.pkt lb = some h →
    ∃ t, exec .srtpParse s = .next t ∧ CompletedWith .ok s t ∧
      t.rxMki.toList = s.pkt.load lb s.cfgRtp.m ++ List.replicate (16 - s.cfgRtp.m) 0 ∧
      SrtpResultsAre t.res s.cfgRtp h (lb - h) lb (lb + s.cfgRtp.m) s.roc (beRead (s.pkt.load 2 2)) ∧
      t = { s with rxMki := t.rxMki, res := t.res, mode := t.mode, status := t.status }) ∧
  (∀ s : State, Reports .srtpParse s ((parseCode s.cfgRtp s).getD
    (if s.pktLen.toNat < 12 + s.cfgRtp.m + s.cfgRtp.t then .badParameter
    else if rtpHdrLen s.pkt (s.pktLen.toNat - s.cfgRtp.m - s.cfgRtp.t) = none then .badParameter
    else .ok)))

/-- R230. -/
def Obligations.SrtcpProtectFramesThePacket : Prop :=
  decode 0x00000014 = .ok .srtcpProtect ∧
  (∀ (s : State) (w : Word), s.pkt.wf = true → FramerReady s.cfgRtcp s →
    4 + s.cfgRtcp.m + s.cfgRtcp.t ≤ Config.params.pktCap - s.pktLen.toNat → 8 ≤ s.pktLen.toNat →
    w = trailerWord (decide (s.cfgRtcp.enc ≠ 0)) s.index31 →
    ∃ t, exec .srtcpProtect s = .next t ∧ CompletedWith .ok s t ∧
      (∀ a, a < 8 → t.pkt.read a = s.pkt.read a) ∧
      t.pkt.load 8 (s.pktLen.toNat - 8) =
        s.srtcpXform Config.params .encrypt s.index31 (decide (s.cfgRtcp.enc ≠ 0)) (s.pkt.load 8 (s.pktLen.toNat - 8)) ∧
      t.pkt.load s.pktLen.toNat 4 = beBytes 4 w.toNat ∧
      t.pkt.load (s.pktLen.toNat + 4) s.cfgRtcp.m = s.mki.toList.take s.cfgRtcp.m ∧
      TagMatches s.cfgRtcp t (t.pkt.load 0 (s.pktLen.toNat + 4)) ∧
      (∀ a, s.pktLen.toNat + 4 + s.cfgRtcp.m + s.cfgRtcp.t ≤ a → t.pkt.read a = s.pkt.read a) ∧
      t.pktLen.toNat = s.pktLen.toNat + 4 + s.cfgRtcp.m + s.cfgRtcp.t ∧
      SrtcpResultsAre t.res s.cfgRtcp (s.pktLen.toNat - 8) (s.pktLen.toNat + 4) (s.pktLen.toNat + 4 + s.cfgRtcp.m) w ∧
      t = { s with pkt := t.pkt, pktLen := t.pktLen, res := t.res, mode := t.mode, status := t.status }) ∧
  (∀ s : State, Reports .srtcpProtect s ((framerCode s.cfgRtcp s).getD
    (if Config.params.pktCap - s.pktLen.toNat < 4 + s.cfgRtcp.m + s.cfgRtcp.t then .insufficientBufferSpace
    else if s.pktLen.toNat < 8 then .badParameter
    else .ok)))

/-- R231. -/
def Obligations.SrtcpUnprotectRestoresThePayload : Prop :=
  decode 0x00000015 = .ok .srtcpUnprotect ∧
  (∀ (s : State) (lb : Nat) (w : Word), s.pkt.wf = true → FramerReady s.cfgRtcp s →
    12 + s.cfgRtcp.m + s.cfgRtcp.t ≤ s.pktLen.toNat → lb + s.cfgRtcp.m + s.cfgRtcp.t = s.pktLen.toNat →
    w = BitVec.ofNat 32 (beRead (s.pkt.load (lb - 4) 4)) → TagMatches s.cfgRtcp s (s.pkt.load 0 lb) →
    (w.getLsbD 31 = true → s.cfgRtcp.enc ≠ 0) →
    ∃ t, exec .srtcpUnprotect s = .next t ∧ CompletedWith .ok s t ∧
      (w.getLsbD 31 = true → t.pkt.load 8 (lb - 12) =
        s.srtcpXform Config.params .decrypt (w.extractLsb' 0 31) true (s.pkt.load 8 (lb - 12))) ∧
      (w.getLsbD 31 = false → ∀ a, t.pkt.read a = s.pkt.read a) ∧
      (∀ a, a < 8 ∨ lb - 4 ≤ a → t.pkt.read a = s.pkt.read a) ∧
      t.pktLen.toNat = lb - 4 ∧
      t.rxMki.toList = s.pkt.load lb s.cfgRtcp.m ++ List.replicate (16 - s.cfgRtcp.m) 0 ∧
      SrtcpResultsAre t.res s.cfgRtcp (lb - 12) lb (lb + s.cfgRtcp.m) w ∧
      t = { s with pkt := t.pkt, pktLen := t.pktLen, rxMki := t.rxMki, res := t.res, mode := t.mode, status := t.status }) ∧
  (∀ (s : State) (lb : Nat) (w : Word), lb = s.pktLen.toNat - s.cfgRtcp.m - s.cfgRtcp.t →
    w = BitVec.ofNat 32 (beRead (s.pkt.load (lb - 4) 4)) →
    Reports .srtcpUnprotect s ((framerCode s.cfgRtcp s).getD
      (if s.pktLen.toNat < 12 + s.cfgRtcp.m + s.cfgRtcp.t then .badParameter
      else if ¬ TagMatches s.cfgRtcp s (s.pkt.load 0 lb) then .authFailure
      else if w.getLsbD 31 = true ∧ s.cfgRtcp.enc = 0 then .badParameter
      else .ok)))

/-- R232. -/
def Obligations.SrtcpParseExtractsTheIndex : Prop :=
  decode 0x00000016 = .ok .srtcpParse ∧
  (∀ (s : State) (lb : Nat), (s.cfgRtcp.mkiEn = true → s.cfgRtcp.mkiLen.toNat ≤ 16) → PacketFits s →
    12 + s.cfgRtcp.m + s.cfgRtcp.t ≤ s.pktLen.toNat → lb + s.cfgRtcp.m + s.cfgRtcp.t = s.pktLen.toNat →
    ∃ t, exec .srtcpParse s = .next t ∧ CompletedWith .ok s t ∧
      t.rxMki.toList = s.pkt.load lb s.cfgRtcp.m ++ List.replicate (16 - s.cfgRtcp.m) 0 ∧
      SrtcpResultsAre t.res s.cfgRtcp (lb - 12) lb (lb + s.cfgRtcp.m) (BitVec.ofNat 32 (beRead (s.pkt.load (lb - 4) 4))) ∧
      t = { s with rxMki := t.rxMki, res := t.res, mode := t.mode, status := t.status }) ∧
  (∀ s : State, Reports .srtcpParse s ((parseCode s.cfgRtcp s).getD
    (if s.pktLen.toNat < 12 + s.cfgRtcp.m + s.cfgRtcp.t then .badParameter else .ok)))

/-- R215: the payload transform is the configured cipher with the IV built inside the command. -/
def Obligations.PayloadTransformIsTheConfiguredCipher : Prop :=
  ∀ (s : State) (dir : Dir) (i31 : BitVec 31) (e : Bool) (data key salt : List Byte),
    key = s.ekey.toList.take s.ekeyLen.toNat → salt = s.salt.toList.take s.saltLen.toNat →
    (s.cfgRtp.enc = 0 → s.srtpXform Config.params dir data = data) ∧
    (s.cfgRtp.enc = 1 → s.srtpXform Config.params dir data =
      cmXor Config.params ⟨.direct, .rtp, dir⟩ key (cmIvRtp salt s.rtpSsrc (s.roc ++ s.rtpSeq)) data) ∧
    (s.cfgRtp.enc = 2 → s.srtpXform Config.params dir data =
      f8Process Config.params ⟨.direct, .rtp, dir⟩ key
        (f8IvPrime Config.params ⟨.ivBuilding, .rtp, dir⟩ (f8IvRtp (s.pkt.load 0 12) s.roc) key salt) data dir) ∧
    (s.cfgRtcp.enc = 0 → s.srtcpXform Config.params dir i31 e data = data) ∧
    (s.cfgRtcp.enc = 1 → s.srtcpXform Config.params dir i31 e data =
      cmXor Config.params ⟨.direct, .rtcp, dir⟩ key (cmIvRtcp salt s.rtcpSsrc i31) data) ∧
    (s.cfgRtcp.enc = 2 → s.srtcpXform Config.params dir i31 e data =
      f8Process Config.params ⟨.direct, .rtcp, dir⟩ key
        (f8IvPrime Config.params ⟨.ivBuilding, .rtcp, dir⟩ (f8IvRtcp Config.params e i31 (s.pkt.load 0 8)) key salt) data dir)

/-! ### Round trips -/

/-- R223 (a): SRTP_PROTECT and then SRTP_UNPROTECT restore PKT[0 .. L0) and PKT_LEN, for every ENC, every legal header and
every payload length. -/
def Obligations.SrtpUnprotectUndoesProtect : Prop :=
  ∀ (s t : State), s.pkt.wf = true → exec .srtpProtect s = .next t → t.status.code = .ok →
    ∃ u, exec .srtpUnprotect t = .next u ∧ u.status.code = .ok ∧ u.pktLen = s.pktLen ∧
      ∀ a, a < s.pktLen.toNat → u.pkt.read a = s.pkt.read a

/-- R233 (a): SRTCP_PROTECT and then SRTCP_UNPROTECT restore PKT[0 .. L0) and PKT_LEN. -/
def Obligations.SrtcpUnprotectUndoesProtect : Prop :=
  ∀ (s t : State), s.pkt.wf = true → exec .srtcpProtect s = .next t → t.status.code = .ok →
    ∃ u, exec .srtcpUnprotect t = .next u ∧ u.status.code = .ok ∧ u.pktLen = s.pktLen ∧
      ∀ a, a < s.pktLen.toNat → u.pkt.read a = s.pkt.read a

/-- R223 (c), R233 (c): a parse after a protect with the same configuration reports what the protect reported, and the MKI. -/
def Obligations.ParseAfterProtectReportsTheSame : Prop :=
  (∀ (s t : State), s.pkt.wf = true → exec .srtpProtect s = .next t → t.status.code = .ok →
    ∃ u, exec .srtpParse t = .next u ∧ u.status.code = .ok ∧ u.res = t.res ∧
      u.rxMki.toList.take s.cfgRtp.m = s.mki.toList.take s.cfgRtp.m) ∧
  (∀ (s t : State), s.pkt.wf = true → exec .srtcpProtect s = .next t → t.status.code = .ok →
    ∃ u, exec .srtcpParse t = .next u ∧ u.status.code = .ok ∧ u.res = t.res ∧
      u.rxMki.toList.take s.cfgRtcp.m = s.mki.toList.take s.cfgRtcp.m)

/-- R142: running CM_XOR twice restores the packet buffer, whatever DIR and CLS say. -/
def Obligations.CmXorTwiceRestoresTheBuffer : Prop :=
  ∀ (s t : State) (dir dir' : Dir) (cls cls' : Cls), s.pkt.wf = true → exec (.cmXor dir cls) s = .next t →
    t.status.code = .ok → ∃ u, exec (.cmXor dir' cls') t = .next u ∧ u = { t with pkt := s.pkt }

/-! ### The cipher functions -/

/-- R133, R134, R135 and R136: the keystream, block by block, and the XOR pipeline. Block `j` of the keystream is the cipher of
the IV with bytes 14-15 replaced by `j` in network order, `j` counted from 0, and the last block is cut at `n` bytes. -/
def Obligations.CmXorIsALengthPreservingInvolution : Prop :=
  ∀ (P : Params) (pu : Purpose) (key : List Byte) (iv : Block) (d : List Byte),
    (∀ n, (cmKeystream P pu key iv n).length = n) ∧
    (∀ (n j : Nat) (ctr : Block), 16 * j < n →
      ctr.toList = iv.toList.take 14 ++ [BitVec.ofNat 8 (j / 256), BitVec.ofNat 8 j] →
      ((cmKeystream P pu key iv n).drop (16 * j)).take 16 = (P.cipher key ctr).toList.take (n - 16 * j)) ∧
    (∀ k, (cmXor P pu key iv d).getD k 0 = d.getD k 0 ^^^ (cmKeystream P pu key iv d.length).getD k 0) ∧
    (cmXor P pu key iv d).length = d.length ∧
    cmXor P pu key iv (cmXor P pu key iv d) = d ∧
    (∀ k, (cmXor P pu key iv d).take k = cmXor P pu key iv (d.take k)) ∧
    (∀ n n', n ≤ n' → cmKeystream P pu key iv n = (cmKeystream P pu key iv n').take n) ∧
    (∀ n, cmXor P pu key iv (List.replicate n 0) = cmKeystream P pu key iv n)

/-- R188 (a), (b), (c): F8 decryption inverts encryption under either feedback; under KEYSTREAM the direction does not matter;
the first block's keystream is E(key, IV′). R186, R187: the keystream of block `j + 1` is the cipher of IV′, the block number
in network order in bytes 14-15, and the chained block XORed together; the chained block is the keystream of block `j`, which
is its input XOR its output, under KEYSTREAM, and the ciphertext of block `j` under CIPHERTEXT. -/
def Obligations.F8DecryptionInvertsEncryption : Prop :=
  ∀ (P : Params) (pu pu' : Purpose) (key : List Byte) (ivp : Block) (d : List Byte),
    f8Process P pu' key ivp (f8Process P pu key ivp d .encrypt) .decrypt = d ∧
    (P.f8Feedback = .keystream → f8Process P pu key ivp d .encrypt = f8Process P pu' key ivp d .decrypt) ∧
    (∀ dir, (f8Process P pu key ivp d dir).length = d.length) ∧
    (∀ dir, (f8Process P pu key ivp d dir).take 16 = xorBytes (d.take 16) (P.cipher key ivp).toList) ∧
    (∀ (dir : Dir) (j : Nat) (out chained : List Byte) (x : Block), out = f8Process P pu key ivp d dir →
      16 * (j + 1) < d.length →
      chained = (match P.f8Feedback, dir with
        | .keystream, _ => xorBytes (slice d (16 * j) 16) (slice out (16 * j) 16)
        | .ciphertext, .encrypt => slice out (16 * j) 16
        | .ciphertext, .decrypt => slice d (16 * j) 16) →
      x.toList = xorBytes (xorBytes ivp.toList
        (List.replicate 14 0 ++ [BitVec.ofNat 8 ((j + 1) / 256), BitVec.ofNat 8 (j + 1)])) chained →
      slice out (16 * (j + 1)) 16 = xorBytes (slice d (16 * (j + 1)) 16) (P.cipher key x).toList)

/-- R131: the RTP IV as a 128-bit big-endian integer, with the counter field zero. -/
def Obligations.CmIvRtpIsTheIntegerFormula : Prop :=
  ∀ (salt : List Byte) (ssrc : BitVec 32) (index : BitVec 48),
    beRead (cmIvRtp salt ssrc index).toList =
      ((beRead (saltAlign14 salt) * 2 ^ 16) ^^^ (ssrc.toNat * 2 ^ 64)) ^^^ (index.toNat * 2 ^ 16)

/-- R132: the RTCP IV is the RTP IV of the 31-bit index zero-extended to 48 bits. -/
def Obligations.CmIvRtcpIsCmIvRtpOfTheExtendedIndex : Prop :=
  ∀ (salt : List Byte) (ssrc : BitVec 32) (index31 : BitVec 31),
    cmIvRtcp salt ssrc index31 = cmIvRtp salt ssrc (index31.setWidth 48)

/-- R130: right-aligned, left-padded with zeros or cut on the left, to 14 bytes. -/
def Obligations.SaltAlignmentIsRightAligned : Prop :=
  ∀ s : List Byte, (saltAlign14 s).length = 14 ∧
    (s.length ≤ 14 → saltAlign14 s = List.replicate (14 - s.length) 0 ++ s) ∧
    (14 < s.length → ∃ cut, cut.length = s.length - 14 ∧ cut ++ saltAlign14 s = s)

/-- R161, R162: where the label and r lie in the derivation IV, for both widths of r; the counter field is zero. -/
def Obligations.DerivationIvPlacesLabelAndR : Prop :=
  ∀ (label : Byte) (r : Nat) (msalt : List Byte),
    (r < 2 ^ 48 → (kdfIv label r .six msalt).toList =
      xorBytes (List.replicate 7 0 ++ [label] ++ beBytes 6 r ++ [0, 0]) (saltAlign14 msalt ++ [0, 0])) ∧
    (r < 2 ^ 32 → (kdfIv label r .four msalt).toList =
      xorBytes (List.replicate 9 0 ++ [label] ++ beBytes 4 r ++ [0, 0]) (saltAlign14 msalt ++ [0, 0]))

/-- R160, R163: the derived bytes are the AES-CM keystream under the master key, from the derivation IV of the label, the
master salt and floor(index / KDR), or 0 when KDR = 0; so they depend on the index only through that quotient, and a shorter
output is a prefix of a longer one. -/
def Obligations.DerivationDependsOnlyOnTheQuotient : Prop :=
  ∀ (P : Params) (pu pu' : Purpose) (label : Byte) (n : Nat) (mkey msalt : List Byte) (kdr : Word) (i j : Nat) (w : RWidth),
    kdf P pu label n mkey msalt kdr i w =
      cmKeystream P pu mkey (kdfIv label (if kdr = 0 then 0 else i / kdr.toNat) w msalt) n ∧
    (i / kdr.toNat = j / kdr.toNat → kdf P pu label n mkey msalt kdr i w = kdf P pu' label n mkey msalt kdr j w) ∧
    kdf P pu label n mkey msalt 0 i w = kdf P pu' label n mkey msalt 0 j w ∧
    (∀ n', n ≤ n' → kdf P pu label n mkey msalt kdr i w = (kdf P pu label n' mkey msalt kdr i w).take n)

/-- R183, R184: the F8 mask and the masked key, byte by byte. -/
def Obligations.F8MaskIsLeftAlignedSalt : Prop :=
  (∀ (salt : List Byte) (kl : Nat), f8Mask salt kl = salt.take kl ++ List.replicate (kl - salt.length) 0x55) ∧
  ∀ (key salt : List Byte), (f8MaskedKey key salt).length = key.length ∧
    ∀ k (h : k < key.length) (h' : k < (f8MaskedKey key salt).length),
      (f8MaskedKey key salt)[k] = key[k] ^^^ (if hs : k < salt.length then salt[k] else 0x55)

/-- R211: the header length, for every packet and limit. -/
def Obligations.RtpHeaderLengthFollowsTheHeader : Prop :=
  ∀ (p : Memory) (limit h cc ext : Nat), cc = (p.read 0).toNat % 16 → ext = beRead (p.load (12 + 4 * cc + 2) 2) →
    (rtpHdrLen p limit = some h ↔
      12 ≤ limit ∧ 12 + 4 * cc ≤ limit ∧
      (((p.read 0).getLsbD 4 = false ∧ h = 12 + 4 * cc) ∨
       ((p.read 0).getLsbD 4 = true ∧ 12 + 4 * cc + 4 ≤ limit ∧ h = 12 + 4 * cc + 4 + 4 * ext ∧ h ≤ limit)))

/-! ### The host bus -/

/-- R84: no read has a side effect anywhere in the map, and while BUSY = 0 repeating a read gives the same word. -/
def Obligations.ReadsHaveNoSideEffect : Prop :=
  ∀ (off : Nat) (s : State), off < 0x1000 ∨ off - 0x1000 < Config.params.pktCap →
    ∃ t, hostRead off s = .next t ∧ t.block = s.block ∧ t.schedule = s.schedule ∧
      (s.status.busy = false → hostRead off t = .next t)

/-- R88: host accesses while BUSY = 1. The unspecified word is the free value `Config.busyRead` of a count that each such read
raises (log 6); `readData` is the model's record of the reply (log 9). -/
def Obligations.AccessesWhileBusy : Prop :=
  ∀ (off : Nat) (v : Word) (s : State), AlignedInMap off → s.status.busy = true →
    hostWrite 0x00C v s = .next { s with
      status := { s.status with done := s.status.done && !v.getLsbD 1, wbusy := s.status.wbusy && !v.getLsbD 2 } } ∧
    (off ≠ 0x00C → hostWrite off v s = .next { s with status := { s.status with wbusy := true } }) ∧
    hostRead 0x00C s = .next { s with readData := s.status.word } ∧
    hostRead 0x000 s = .next { s with readData := 0x53525450 } ∧
    hostRead 0x004 s = .next { s with readData := 0x00000001 } ∧
    (off ≠ 0x000 → off ≠ 0x004 → off ≠ 0x00C →
      hostRead off s = .next { s with readData := Config.busyRead s.draws, draws := s.draws + 1 })

/-- R35: the places of STATUS's fields, and what a write to STATUS does, BUSY or not. -/
def Obligations.StatusFieldsAndAcknowledgement : Prop :=
  ∀ (s : State) (v : Word),
    hostRead 0x00C s = .next { s with readData := s.status.word } ∧
    s.status.word.getLsbD 0 = s.status.busy ∧ s.status.word.getLsbD 1 = s.status.done ∧
    s.status.word.getLsbD 2 = s.status.wbusy ∧ s.status.word.extractLsb' 3 5 = 0 ∧
    s.status.word.extractLsb' 8 4 = s.status.code.bits ∧ s.status.word.extractLsb' 12 4 = 0 ∧
    s.status.word.extractLsb' 16 8 = s.status.lastop ∧ s.status.word.extractLsb' 24 8 = 0 ∧
    hostWrite 0x00C v s = .next { s with
      status := { s.status with done := s.status.done && !v.getLsbD 1, wbusy := s.status.wbusy && !v.getLsbD 2 } }

/-- R36: an accepted command write, an ignored one, and reading CMD back. -/
def Obligations.CommandWriteIsAcceptedWhenIdle : Prop :=
  ∀ (s : State) (w : Word),
    (s.status.busy = false → hostWrite 0x010 w s = .next { s with
      cmd := w
      pending := w
      mode := .busy
      status := ⟨true, s.status.done, s.status.wbusy, s.status.code, s.status.lastop⟩ }) ∧
    (s.status.busy = true → hostWrite 0x010 w s = .next { s with status := { s.status with wbusy := true } }) ∧
    (s.status.busy = false → hostRead 0x010 s = .next { s with readData := s.cmd })

/-- R82: big-endian packing of PKT into bus words, both ways. -/
def Obligations.PacketWordsAreBigEndian : Prop :=
  ∀ (s : State) (k : Nat) (v : Word), 4 * k + 4 ≤ Config.params.pktCap → s.pkt.wf = true → s.status.busy = false →
    (∃ t, hostRead (0x1000 + 4 * k) s = .next t ∧ t.readData.toNat =
      (s.pkt.read (4 * k)).toNat * 2 ^ 24 + (s.pkt.read (4 * k + 1)).toNat * 2 ^ 16 + (s.pkt.read (4 * k + 2)).toNat * 2 ^ 8
        + (s.pkt.read (4 * k + 3)).toNat) ∧
    (∃ t, hostWrite (0x1000 + 4 * k) v s = .next t ∧ t = { s with pkt := t.pkt } ∧
      t.pkt.read (4 * k) = v.extractLsb' 24 8 ∧ t.pkt.read (4 * k + 1) = v.extractLsb' 16 8 ∧
      t.pkt.read (4 * k + 2) = v.extractLsb' 8 8 ∧ t.pkt.read (4 * k + 3) = v.extractLsb' 0 8 ∧
      ∀ a, a < 4 * k ∨ 4 * k + 4 ≤ a → t.pkt.read a = s.pkt.read a)

/-- R31, R82: where each byte window lies, and its big-endian packing into bus words, both ways; a window write changes no
register, no other window and no byte of PKT; RX_MKI and IVPREG ignore writes. -/
def Obligations.WindowWordsAreBigEndian : Prop :=
  ∀ (s : State) (r : WindowRow) (k : Nat) (v : Word),
    r ∈ ([⟨0x100, 32, .mkey⟩, ⟨0x120, 16, .msalt⟩, ⟨0x140, 32, .ekey⟩, ⟨0x160, 16, .salt⟩, ⟨0x180, 64, .akey⟩,
      ⟨0x1C0, 16, .mki⟩, ⟨0x1D0, 16, .rxMki⟩, ⟨0x1E0, 16, .ivreg⟩, ⟨0x1F0, 16, .ivpreg⟩] : List WindowRow) →
    4 * k + 4 ≤ r.size → s.status.busy = false →
    s.windowBytes r.name = (match r.name with
      | .mkey => s.mkey.toList
      | .msalt => s.msalt.toList
      | .ekey => s.ekey.toList
      | .salt => s.salt.toList
      | .akey => s.akey.toList
      | .mki => s.mki.toList
      | .rxMki => s.rxMki.toList
      | .ivreg => s.ivreg.toList
      | .ivpreg => s.ivpreg.toList) ∧
    (∃ t, hostRead (r.base + 4 * k) s = .next t ∧ t = { s with readData := t.readData } ∧ t.readData.toNat =
      ((s.windowBytes r.name).getD (4 * k) 0).toNat * 2 ^ 24 + ((s.windowBytes r.name).getD (4 * k + 1) 0).toNat * 2 ^ 16
        + ((s.windowBytes r.name).getD (4 * k + 2) 0).toNat * 2 ^ 8 + ((s.windowBytes r.name).getD (4 * k + 3) 0).toNat) ∧
    (r.name ≠ .rxMki → r.name ≠ .ivpreg → ∃ t, hostWrite (r.base + 4 * k) v s = .next t ∧
      t.windowBytes r.name = (s.windowBytes r.name).take (4 * k)
        ++ [v.extractLsb' 24 8, v.extractLsb' 16 8, v.extractLsb' 8 8, v.extractLsb' 0 8] ++ (s.windowBytes r.name).drop (4 * k + 4) ∧
      (∀ n, n ≠ r.name → t.windowBytes n = s.windowBytes n) ∧
      t = { s with
        mkey := t.mkey
        msalt := t.msalt
        ekey := t.ekey
        salt := t.salt
        akey := t.akey
        mki := t.mki
        ivreg := t.ivreg }) ∧
    (r.name = .rxMki ∨ r.name = .ivpreg → hostWrite (r.base + 4 * k) v s = .next s)

/-- R81 and R85: an access that selects no word of the block, misaligned (log 10) or beyond the map (log 11), reads 0 or is
ignored, and changes nothing of the block, busy or not. -/
def Obligations.MisalignedAndBeyondTheMap : Prop :=
  ∀ (off : Nat) (v : Word) (s : State), off % 4 ≠ 0 ∨ 0x1000 + Config.params.pktCap ≤ off →
    hostRead off s = .next { s with readData := 0 } ∧ hostWrite off v s = .next s

/-- R31-R51: which register each offset writes, what it stores, and that it changes nothing else; what a written register reads
back as: its used bits. Read-only registers and unmapped offsets ignore writes. That the host writes BOFF is log 12. -/
def Obligations.RegistersKeepTheirUsedBits : Prop :=
  ∀ (s : State) (v : Word), s.status.busy = false →
    (∀ r ∈ [(0x014, 0x0000FFFF), (0x018, 0x0000FFFF), (0x01C, 0x0000FFFF), (0x020, 0xFFFFFFFF), (0x024, 0x0000FFFF),
        (0x028, 0xFFFFFFFF), (0x02C, 0xFFFFFFFB), (0x030, 0xFFFFFFFB), (0x034, 0x000000FF), (0x038, 0x000000FF),
        (0x03C, 0x000000FF), (0x040, 0x000000FF), (0x044, (0x000000FF : Word))],
      ∃ t, hostWrite r.1 v s = .next t ∧ t.pkt = s.pkt ∧ t.status = s.status ∧
        hostRead r.1 t = .next { t with readData := v &&& r.2 }) ∧
    (hostWrite 0x014 v s = .next { s with pktLen := v.extractLsb' 0 16 } ∧
      hostWrite 0x018 v s = .next { s with boff := v.extractLsb' 0 16 } ∧
      hostWrite 0x01C v s = .next { s with blen := v.extractLsb' 0 16 } ∧
      hostWrite 0x020 v s = .next { s with idxLo := v } ∧
      hostWrite 0x024 v s = .next { s with idxHi := v.extractLsb' 0 16 } ∧
      hostWrite 0x028 v s = .next { s with kdr := v } ∧
      hostWrite 0x034 v s = .next { s with mkeyLen := v.extractLsb' 0 8 } ∧
      hostWrite 0x038 v s = .next { s with msaltLen := v.extractLsb' 0 8 } ∧
      hostWrite 0x03C v s = .next { s with ekeyLen := v.extractLsb' 0 8 } ∧
      hostWrite 0x040 v s = .next { s with akeyLen := v.extractLsb' 0 8 } ∧
      hostWrite 0x044 v s = .next { s with saltLen := v.extractLsb' 0 8 }) ∧
    (∀ off ∈ [0x000, 0x004, 0x060, 0x064, 0x068, 0x06C, 0x070, 0x074, 0x078], hostWrite off v s = .next s) ∧
    (∀ off, off % 4 = 0 → (0x048 ≤ off ∧ off < 0x060) ∨ (0x07C ≤ off ∧ off < 0x100) ∨ (0x130 ≤ off ∧ off < 0x140) ∨
        (0x170 ≤ off ∧ off < 0x180) ∨ (0x200 ≤ off ∧ off < 0x1000) →
      hostWrite off v s = .next s ∧ hostRead off s = .next { s with readData := 0 })

/-- R42: the places of CFG_RTP's and CFG_RTCP's fields, written and read; bit 2 reads 0. A write changes nothing else. -/
def Obligations.ConfigurationFieldsLieInTheirPlaces : Prop :=
  ∀ (s : State) (v : Word) (c : Cfg), s.status.busy = false →
    c = ⟨v.extractLsb' 0 2, v.getLsbD 3, v.extractLsb' 4 4, v.extractLsb' 8 8, v.extractLsb' 16 8, v.extractLsb' 24 8⟩ →
    hostWrite 0x02C v s = .next { s with cfgRtp := c } ∧
    hostWrite 0x030 v s = .next { s with cfgRtcp := c } ∧
    (∀ r ∈ [(0x02C, s.cfgRtp), (0x030, s.cfgRtcp)], ∃ w : Word, hostRead r.1 s = .next { s with readData := w } ∧
      w.extractLsb' 0 2 = r.2.enc ∧ w.getLsbD 2 = false ∧ w.getLsbD 3 = r.2.mkiEn ∧ w.extractLsb' 4 4 = r.2.auth ∧
      w.extractLsb' 8 8 = r.2.tagLen ∧ w.extractLsb' 16 8 = r.2.mkiLen ∧ w.extractLsb' 24 8 = r.2.prefixLen)

/-- R32, R33, R34, R50, R51: ID and VERSION, CTRL's IE and SRST, and where each result register and each bit of RES_FLAGS is
read, while BUSY = 0 (AccessesWhileBusy has ID and VERSION while BUSY = 1). -/
def Obligations.ControlAndResultsReadInTheirPlaces : Prop :=
  ∀ (s : State) (v : Word), s.status.busy = false →
    hostRead 0x000 s = .next { s with readData := 0x53525450 } ∧
    hostRead 0x004 s = .next { s with readData := 0x00000001 } ∧
    (v.getLsbD 1 = false → hostWrite 0x008 v s = .next { s with ie := v.getLsbD 0 }) ∧
    hostRead 0x008 s = .next { s with readData := if s.ie then 1 else 0 } ∧
    hostRead 0x060 s = .next { s with readData := s.res.hdrLen.setWidth 32 } ∧
    hostRead 0x064 s = .next { s with readData := s.res.payLen.setWidth 32 } ∧
    hostRead 0x068 s = .next { s with readData := s.res.mkiOff.setWidth 32 } ∧
    hostRead 0x06C s = .next { s with readData := s.res.tagOff.setWidth 32 } ∧
    hostRead 0x070 s = .next { s with readData := s.res.idxLo } ∧
    hostRead 0x074 s = .next { s with readData := s.res.idxHi.setWidth 32 } ∧
    (∃ w : Word, hostRead 0x078 s = .next { s with readData := w } ∧ w.getLsbD 0 = s.res.flags.e ∧ w.getLsbD 1 = s.res.flags.mkip ∧
      w.getLsbD 2 = s.res.flags.tagp ∧ w.extractLsb' 3 29 = 0)

/-- R280: IRQ = CTRL.IE AND STATUS.DONE: it rises when a command completes with any code while IE = 1 or when IE is set while
DONE = 1, and falls only when the host clears DONE or IE, one of the two by a reset. -/
def Obligations.InterruptFollowsEnableAndDone : Prop :=
  (∀ s : State, s.irq = (s.ie && s.status.done)) ∧
  (∀ (i : Instr) (s t : State), exec i s = .next t → t.irq = s.ie) ∧
  (∀ (s : State) (v : Word), v.getLsbD 1 = true → ∃ t, hostWrite 0x00C v s = .next t ∧ t.irq = false) ∧
  (∀ (s : State) (v : Word), s.status.busy = false → v.getLsbD 1 = false →
    ∃ t, hostWrite 0x008 v s = .next t ∧ t.irq = (v.getLsbD 0 && s.status.done)) ∧
  (∀ s t : State, step s = .next t → s.irq = true → t.irq = true ∨
    (∃ v : Word, s.nextEvent = .hostWrite 0x00C v ∧ v.getLsbD 1 = true) ∨
    (∃ v : Word, s.nextEvent = .hostWrite 0x008 v ∧ (v.getLsbD 0 = false ∨ v.getLsbD 1 = true)) ∨
    ∃ ram, s.nextEvent = .hardReset ram)

/-! ### What commands do not read -/

/-- R49: no command reads IVPREG. -/
def Obligations.NoCommandReadsIvpreg : Prop :=
  ∀ (i : Instr) (s t : State) (v : Block), exec i s = .next t →
    ∃ t', exec i { s with ivpreg := v } = .next t' ∧ { t' with ivpreg := t.ivpreg } = t

/-- R45: only the bytes below a window's length take part in any computation. -/
def Obligations.BytesBeyondALengthTakeNoPart : Prop :=
  ∀ (i : Instr) (s t : State), exec i s = .next t →
    (∀ k, k.toList.take s.mkeyLen.toNat = s.mkey.toList.take s.mkeyLen.toNat →
      ∃ t', exec i { s with mkey := k } = .next t' ∧ { t' with mkey := t.mkey } = t) ∧
    (∀ k, k.toList.take s.msaltLen.toNat = s.msalt.toList.take s.msaltLen.toNat →
      ∃ t', exec i { s with msalt := k } = .next t' ∧ { t' with msalt := t.msalt } = t) ∧
    (∀ k, k.toList.take s.ekeyLen.toNat = s.ekey.toList.take s.ekeyLen.toNat →
      ∃ t', exec i { s with ekey := k } = .next t' ∧ { t' with ekey := t.ekey } = t) ∧
    (∀ k, k.toList.take s.akeyLen.toNat = s.akey.toList.take s.akeyLen.toNat →
      ∃ t', exec i { s with akey := k } = .next t' ∧ { t' with akey := t.akey } = t) ∧
    (∀ k, k.toList.take s.saltLen.toNat = s.salt.toList.take s.saltLen.toNat →
      ∃ t', exec i { s with salt := k } = .next t' ∧ { t' with salt := t.salt } = t)

/-- R40: which commands ignore which bits of IDX. F8_IV_RTP and the SRTP commands ignore IDX[15:0]; the RTCP-class commands
ignore IDX_HI; SRTCP_UNPROTECT and SRTCP_PARSE ignore IDX; CM_IV_RTCP, KDF_RTCP and SRTCP_PROTECT ignore IDX[31]. -/
def Obligations.CommandsIgnoreTheOtherIndexBits : Prop :=
  ∀ (i : Instr) (s t : State) (lo : Word) (hi : Half), exec i s = .next t →
    (i.opcode ∈ [0x08, 0x10, 0x11, 0x12] → lo.extractLsb' 16 16 = s.idxLo.extractLsb' 16 16 →
      exec i { s with idxLo := lo } = .next { t with idxLo := lo }) ∧
    (i.opcode ∈ [0x02, 0x05, 0x09, 0x14] → exec i { s with idxHi := hi } = .next { t with idxHi := hi }) ∧
    (i.opcode ∈ [0x15, 0x16] → exec i { s with idxLo := lo, idxHi := hi } = .next { t with idxLo := lo, idxHi := hi }) ∧
    (i.opcode ∈ [0x02, 0x05, 0x14] → lo.extractLsb' 0 31 = s.idxLo.extractLsb' 0 31 →
      exec i { s with idxLo := lo } = .next { t with idxLo := lo })

/-- R101, R91: PURPOSE is 4·use + 2·cls + dir, so CLS is its bit 1 and DIR its bit 0. DIR and CLS of CM_XOR and F8_IVPRIME, and CLS
of F8_XOR, change no result; DIR of a KDF likewise; under F8_FEEDBACK = KEYSTREAM so does DIR of F8_XOR. That PURPOSE has no
effect is log 15. -/
def Obligations.DirAndClsOnlySelectThePurpose : Prop :=
  (∀ p : Purpose, p.value = 4 * (if p.use = .direct then 0 else if p.use = .ivBuilding then 1 else 2)
    + 2 * (if p.cls = .rtcp then 1 else 0) + (if p.dir = .decrypt then 1 else 0)) ∧
  ∀ (s : State) (dir dir' : Dir) (cls cls' : Cls) (label : Byte) (dest : BitVec 3),
    exec (.cmXor dir cls) s = exec (.cmXor dir' cls') s ∧
    exec (.f8IvPrime dir cls) s = exec (.f8IvPrime dir' cls') s ∧
    exec (.f8Xor dir cls) s = exec (.f8Xor dir cls') s ∧
    exec (.kdfRtp dir label dest) s = exec (.kdfRtp dir' label dest) s ∧
    exec (.kdfRtcp dir label dest) s = exec (.kdfRtcp dir' label dest) s ∧
    (∀ P : Params, P.f8Feedback = .keystream → f8XorWith P dir cls s = f8XorWith P dir' cls' s)
end

