-- ==== Sys2Proof/Laws/State.lean ====
section
/-! SUPPORT. What each update of the state leaves in each field, so that no later proof unfolds a record update. -/

namespace Sys2Proof.Machine

/-! Completing a command (R274). -/

@[simp] theorem State.complete_mode (s : State) (c : Code) : (s.complete c).mode = .idle := rfl
@[simp] theorem State.complete_pending (s : State) (c : Code) : (s.complete c).pending = s.pending := rfl
@[simp] theorem State.complete_ie (s : State) (c : Code) : (s.complete c).ie = s.ie := rfl
@[simp] theorem State.complete_status (s : State) (c : Code) : (s.complete c).status = ⟨false, true, s.status.wbusy, c, Word.op s.cmd⟩ := rfl
@[simp] theorem State.complete_cmd (s : State) (c : Code) : (s.complete c).cmd = s.cmd := rfl
@[simp] theorem State.complete_pktLen (s : State) (c : Code) : (s.complete c).pktLen = s.pktLen := rfl
@[simp] theorem State.complete_boff (s : State) (c : Code) : (s.complete c).boff = s.boff := rfl
@[simp] theorem State.complete_blen (s : State) (c : Code) : (s.complete c).blen = s.blen := rfl
@[simp] theorem State.complete_idxLo (s : State) (c : Code) : (s.complete c).idxLo = s.idxLo := rfl
@[simp] theorem State.complete_idxHi (s : State) (c : Code) : (s.complete c).idxHi = s.idxHi := rfl
@[simp] theorem State.complete_kdr (s : State) (c : Code) : (s.complete c).kdr = s.kdr := rfl
@[simp] theorem State.complete_cfgRtp (s : State) (c : Code) : (s.complete c).cfgRtp = s.cfgRtp := rfl
@[simp] theorem State.complete_cfgRtcp (s : State) (c : Code) : (s.complete c).cfgRtcp = s.cfgRtcp := rfl
@[simp] theorem State.complete_mkeyLen (s : State) (c : Code) : (s.complete c).mkeyLen = s.mkeyLen := rfl
@[simp] theorem State.complete_msaltLen (s : State) (c : Code) : (s.complete c).msaltLen = s.msaltLen := rfl
@[simp] theorem State.complete_ekeyLen (s : State) (c : Code) : (s.complete c).ekeyLen = s.ekeyLen := rfl
@[simp] theorem State.complete_akeyLen (s : State) (c : Code) : (s.complete c).akeyLen = s.akeyLen := rfl
@[simp] theorem State.complete_saltLen (s : State) (c : Code) : (s.complete c).saltLen = s.saltLen := rfl
@[simp] theorem State.complete_mkey (s : State) (c : Code) : (s.complete c).mkey = s.mkey := rfl
@[simp] theorem State.complete_msalt (s : State) (c : Code) : (s.complete c).msalt = s.msalt := rfl
@[simp] theorem State.complete_ekey (s : State) (c : Code) : (s.complete c).ekey = s.ekey := rfl
@[simp] theorem State.complete_salt (s : State) (c : Code) : (s.complete c).salt = s.salt := rfl
@[simp] theorem State.complete_akey (s : State) (c : Code) : (s.complete c).akey = s.akey := rfl
@[simp] theorem State.complete_mki (s : State) (c : Code) : (s.complete c).mki = s.mki := rfl
@[simp] theorem State.complete_rxMki (s : State) (c : Code) : (s.complete c).rxMki = s.rxMki := rfl
@[simp] theorem State.complete_ivreg (s : State) (c : Code) : (s.complete c).ivreg = s.ivreg := rfl
@[simp] theorem State.complete_ivpreg (s : State) (c : Code) : (s.complete c).ivpreg = s.ivpreg := rfl
@[simp] theorem State.complete_res (s : State) (c : Code) : (s.complete c).res = s.res := rfl
@[simp] theorem State.complete_pkt (s : State) (c : Code) : (s.complete c).pkt = s.pkt := rfl
@[simp] theorem State.complete_schedule (s : State) (c : Code) : (s.complete c).schedule = s.schedule := rfl
@[simp] theorem State.complete_readData (s : State) (c : Code) : (s.complete c).readData = s.readData := rfl
@[simp] theorem State.complete_draws (s : State) (c : Code) : (s.complete c).draws = s.draws := rfl

/-! Accepting a command (R36). -/

@[simp] theorem State.accept_mode (s : State) (w : Word) : (s.accept w).mode = .busy := rfl
@[simp] theorem State.accept_pending (s : State) (w : Word) : (s.accept w).pending = w := rfl
@[simp] theorem State.accept_ie (s : State) (w : Word) : (s.accept w).ie = s.ie := rfl
@[simp] theorem State.accept_status (s : State) (w : Word) : (s.accept w).status = ⟨true, s.status.done, s.status.wbusy, s.status.code, s.status.lastop⟩ := rfl
@[simp] theorem State.accept_cmd (s : State) (w : Word) : (s.accept w).cmd = w := rfl
@[simp] theorem State.accept_pktLen (s : State) (w : Word) : (s.accept w).pktLen = s.pktLen := rfl
@[simp] theorem State.accept_boff (s : State) (w : Word) : (s.accept w).boff = s.boff := rfl
@[simp] theorem State.accept_blen (s : State) (w : Word) : (s.accept w).blen = s.blen := rfl
@[simp] theorem State.accept_idxLo (s : State) (w : Word) : (s.accept w).idxLo = s.idxLo := rfl
@[simp] theorem State.accept_idxHi (s : State) (w : Word) : (s.accept w).idxHi = s.idxHi := rfl
@[simp] theorem State.accept_kdr (s : State) (w : Word) : (s.accept w).kdr = s.kdr := rfl
@[simp] theorem State.accept_cfgRtp (s : State) (w : Word) : (s.accept w).cfgRtp = s.cfgRtp := rfl
@[simp] theorem State.accept_cfgRtcp (s : State) (w : Word) : (s.accept w).cfgRtcp = s.cfgRtcp := rfl
@[simp] theorem State.accept_mkeyLen (s : State) (w : Word) : (s.accept w).mkeyLen = s.mkeyLen := rfl
@[simp] theorem State.accept_msaltLen (s : State) (w : Word) : (s.accept w).msaltLen = s.msaltLen := rfl
@[simp] theorem State.accept_ekeyLen (s : State) (w : Word) : (s.accept w).ekeyLen = s.ekeyLen := rfl
@[simp] theorem State.accept_akeyLen (s : State) (w : Word) : (s.accept w).akeyLen = s.akeyLen := rfl
@[simp] theorem State.accept_saltLen (s : State) (w : Word) : (s.accept w).saltLen = s.saltLen := rfl
@[simp] theorem State.accept_mkey (s : State) (w : Word) : (s.accept w).mkey = s.mkey := rfl
@[simp] theorem State.accept_msalt (s : State) (w : Word) : (s.accept w).msalt = s.msalt := rfl
@[simp] theorem State.accept_ekey (s : State) (w : Word) : (s.accept w).ekey = s.ekey := rfl
@[simp] theorem State.accept_salt (s : State) (w : Word) : (s.accept w).salt = s.salt := rfl
@[simp] theorem State.accept_akey (s : State) (w : Word) : (s.accept w).akey = s.akey := rfl
@[simp] theorem State.accept_mki (s : State) (w : Word) : (s.accept w).mki = s.mki := rfl
@[simp] theorem State.accept_rxMki (s : State) (w : Word) : (s.accept w).rxMki = s.rxMki := rfl
@[simp] theorem State.accept_ivreg (s : State) (w : Word) : (s.accept w).ivreg = s.ivreg := rfl
@[simp] theorem State.accept_ivpreg (s : State) (w : Word) : (s.accept w).ivpreg = s.ivpreg := rfl
@[simp] theorem State.accept_res (s : State) (w : Word) : (s.accept w).res = s.res := rfl
@[simp] theorem State.accept_pkt (s : State) (w : Word) : (s.accept w).pkt = s.pkt := rfl
@[simp] theorem State.accept_schedule (s : State) (w : Word) : (s.accept w).schedule = s.schedule := rfl
@[simp] theorem State.accept_readData (s : State) (w : Word) : (s.accept w).readData = s.readData := rfl
@[simp] theorem State.accept_draws (s : State) (w : Word) : (s.accept w).draws = s.draws := rfl

/-! Taking the next event off the schedule. -/

@[simp] theorem State.popEvent_mode (s : State) : (s.popEvent).mode = s.mode := rfl
@[simp] theorem State.popEvent_pending (s : State) : (s.popEvent).pending = s.pending := rfl
@[simp] theorem State.popEvent_ie (s : State) : (s.popEvent).ie = s.ie := rfl
@[simp] theorem State.popEvent_status (s : State) : (s.popEvent).status = s.status := rfl
@[simp] theorem State.popEvent_cmd (s : State) : (s.popEvent).cmd = s.cmd := rfl
@[simp] theorem State.popEvent_pktLen (s : State) : (s.popEvent).pktLen = s.pktLen := rfl
@[simp] theorem State.popEvent_boff (s : State) : (s.popEvent).boff = s.boff := rfl
@[simp] theorem State.popEvent_blen (s : State) : (s.popEvent).blen = s.blen := rfl
@[simp] theorem State.popEvent_idxLo (s : State) : (s.popEvent).idxLo = s.idxLo := rfl
@[simp] theorem State.popEvent_idxHi (s : State) : (s.popEvent).idxHi = s.idxHi := rfl
@[simp] theorem State.popEvent_kdr (s : State) : (s.popEvent).kdr = s.kdr := rfl
@[simp] theorem State.popEvent_cfgRtp (s : State) : (s.popEvent).cfgRtp = s.cfgRtp := rfl
@[simp] theorem State.popEvent_cfgRtcp (s : State) : (s.popEvent).cfgRtcp = s.cfgRtcp := rfl
@[simp] theorem State.popEvent_mkeyLen (s : State) : (s.popEvent).mkeyLen = s.mkeyLen := rfl
@[simp] theorem State.popEvent_msaltLen (s : State) : (s.popEvent).msaltLen = s.msaltLen := rfl
@[simp] theorem State.popEvent_ekeyLen (s : State) : (s.popEvent).ekeyLen = s.ekeyLen := rfl
@[simp] theorem State.popEvent_akeyLen (s : State) : (s.popEvent).akeyLen = s.akeyLen := rfl
@[simp] theorem State.popEvent_saltLen (s : State) : (s.popEvent).saltLen = s.saltLen := rfl
@[simp] theorem State.popEvent_mkey (s : State) : (s.popEvent).mkey = s.mkey := rfl
@[simp] theorem State.popEvent_msalt (s : State) : (s.popEvent).msalt = s.msalt := rfl
@[simp] theorem State.popEvent_ekey (s : State) : (s.popEvent).ekey = s.ekey := rfl
@[simp] theorem State.popEvent_salt (s : State) : (s.popEvent).salt = s.salt := rfl
@[simp] theorem State.popEvent_akey (s : State) : (s.popEvent).akey = s.akey := rfl
@[simp] theorem State.popEvent_mki (s : State) : (s.popEvent).mki = s.mki := rfl
@[simp] theorem State.popEvent_rxMki (s : State) : (s.popEvent).rxMki = s.rxMki := rfl
@[simp] theorem State.popEvent_ivreg (s : State) : (s.popEvent).ivreg = s.ivreg := rfl
@[simp] theorem State.popEvent_ivpreg (s : State) : (s.popEvent).ivpreg = s.ivpreg := rfl
@[simp] theorem State.popEvent_res (s : State) : (s.popEvent).res = s.res := rfl
@[simp] theorem State.popEvent_pkt (s : State) : (s.popEvent).pkt = s.pkt := rfl
@[simp] theorem State.popEvent_schedule (s : State) : (s.popEvent).schedule = s.schedule.tail := rfl
@[simp] theorem State.popEvent_readData (s : State) : (s.popEvent).readData = s.readData := rfl
@[simp] theorem State.popEvent_draws (s : State) : (s.popEvent).draws = s.draws := rfl

/-! The soft reset (R301). -/

@[simp] theorem State.softReset_mode (s : State) : (s.softReset).mode = State.reset.mode := rfl
@[simp] theorem State.softReset_pending (s : State) : (s.softReset).pending = State.reset.pending := rfl
@[simp] theorem State.softReset_ie (s : State) : (s.softReset).ie = State.reset.ie := rfl
@[simp] theorem State.softReset_status (s : State) : (s.softReset).status = State.reset.status := rfl
@[simp] theorem State.softReset_cmd (s : State) : (s.softReset).cmd = State.reset.cmd := rfl
@[simp] theorem State.softReset_pktLen (s : State) : (s.softReset).pktLen = State.reset.pktLen := rfl
@[simp] theorem State.softReset_boff (s : State) : (s.softReset).boff = State.reset.boff := rfl
@[simp] theorem State.softReset_blen (s : State) : (s.softReset).blen = State.reset.blen := rfl
@[simp] theorem State.softReset_idxLo (s : State) : (s.softReset).idxLo = State.reset.idxLo := rfl
@[simp] theorem State.softReset_idxHi (s : State) : (s.softReset).idxHi = State.reset.idxHi := rfl
@[simp] theorem State.softReset_kdr (s : State) : (s.softReset).kdr = State.reset.kdr := rfl
@[simp] theorem State.softReset_cfgRtp (s : State) : (s.softReset).cfgRtp = State.reset.cfgRtp := rfl
@[simp] theorem State.softReset_cfgRtcp (s : State) : (s.softReset).cfgRtcp = State.reset.cfgRtcp := rfl
@[simp] theorem State.softReset_mkeyLen (s : State) : (s.softReset).mkeyLen = State.reset.mkeyLen := rfl
@[simp] theorem State.softReset_msaltLen (s : State) : (s.softReset).msaltLen = State.reset.msaltLen := rfl
@[simp] theorem State.softReset_ekeyLen (s : State) : (s.softReset).ekeyLen = State.reset.ekeyLen := rfl
@[simp] theorem State.softReset_akeyLen (s : State) : (s.softReset).akeyLen = State.reset.akeyLen := rfl
@[simp] theorem State.softReset_saltLen (s : State) : (s.softReset).saltLen = State.reset.saltLen := rfl
@[simp] theorem State.softReset_mkey (s : State) : (s.softReset).mkey = s.mkey := rfl
@[simp] theorem State.softReset_msalt (s : State) : (s.softReset).msalt = s.msalt := rfl
@[simp] theorem State.softReset_ekey (s : State) : (s.softReset).ekey = s.ekey := rfl
@[simp] theorem State.softReset_salt (s : State) : (s.softReset).salt = s.salt := rfl
@[simp] theorem State.softReset_akey (s : State) : (s.softReset).akey = s.akey := rfl
@[simp] theorem State.softReset_mki (s : State) : (s.softReset).mki = s.mki := rfl
@[simp] theorem State.softReset_rxMki (s : State) : (s.softReset).rxMki = State.reset.rxMki := rfl
@[simp] theorem State.softReset_ivreg (s : State) : (s.softReset).ivreg = State.reset.ivreg := rfl
@[simp] theorem State.softReset_ivpreg (s : State) : (s.softReset).ivpreg = State.reset.ivpreg := rfl
@[simp] theorem State.softReset_res (s : State) : (s.softReset).res = State.reset.res := rfl
@[simp] theorem State.softReset_pkt (s : State) : (s.softReset).pkt = s.pkt := rfl
@[simp] theorem State.softReset_schedule (s : State) : (s.softReset).schedule = s.schedule := rfl
@[simp] theorem State.softReset_readData (s : State) : (s.softReset).readData = s.readData := rfl
@[simp] theorem State.softReset_draws (s : State) : (s.softReset).draws = s.draws := rfl

/-! The hard reset (R300). -/

@[simp] theorem State.hardReset_mode (P : Params) (s : State) (ram : Ram) : (s.hardReset P ram).mode = State.reset.mode := rfl
@[simp] theorem State.hardReset_pending (P : Params) (s : State) (ram : Ram) : (s.hardReset P ram).pending = State.reset.pending := rfl
@[simp] theorem State.hardReset_ie (P : Params) (s : State) (ram : Ram) : (s.hardReset P ram).ie = State.reset.ie := rfl
@[simp] theorem State.hardReset_status (P : Params) (s : State) (ram : Ram) : (s.hardReset P ram).status = State.reset.status := rfl
@[simp] theorem State.hardReset_cmd (P : Params) (s : State) (ram : Ram) : (s.hardReset P ram).cmd = State.reset.cmd := rfl
@[simp] theorem State.hardReset_pktLen (P : Params) (s : State) (ram : Ram) : (s.hardReset P ram).pktLen = State.reset.pktLen := rfl
@[simp] theorem State.hardReset_boff (P : Params) (s : State) (ram : Ram) : (s.hardReset P ram).boff = State.reset.boff := rfl
@[simp] theorem State.hardReset_blen (P : Params) (s : State) (ram : Ram) : (s.hardReset P ram).blen = State.reset.blen := rfl
@[simp] theorem State.hardReset_idxLo (P : Params) (s : State) (ram : Ram) : (s.hardReset P ram).idxLo = State.reset.idxLo := rfl
@[simp] theorem State.hardReset_idxHi (P : Params) (s : State) (ram : Ram) : (s.hardReset P ram).idxHi = State.reset.idxHi := rfl
@[simp] theorem State.hardReset_kdr (P : Params) (s : State) (ram : Ram) : (s.hardReset P ram).kdr = State.reset.kdr := rfl
@[simp] theorem State.hardReset_cfgRtp (P : Params) (s : State) (ram : Ram) : (s.hardReset P ram).cfgRtp = State.reset.cfgRtp := rfl
@[simp] theorem State.hardReset_cfgRtcp (P : Params) (s : State) (ram : Ram) : (s.hardReset P ram).cfgRtcp = State.reset.cfgRtcp := rfl
@[simp] theorem State.hardReset_mkeyLen (P : Params) (s : State) (ram : Ram) : (s.hardReset P ram).mkeyLen = State.reset.mkeyLen := rfl
@[simp] theorem State.hardReset_msaltLen (P : Params) (s : State) (ram : Ram) : (s.hardReset P ram).msaltLen = State.reset.msaltLen := rfl
@[simp] theorem State.hardReset_ekeyLen (P : Params) (s : State) (ram : Ram) : (s.hardReset P ram).ekeyLen = State.reset.ekeyLen := rfl
@[simp] theorem State.hardReset_akeyLen (P : Params) (s : State) (ram : Ram) : (s.hardReset P ram).akeyLen = State.reset.akeyLen := rfl
@[simp] theorem State.hardReset_saltLen (P : Params) (s : State) (ram : Ram) : (s.hardReset P ram).saltLen = State.reset.saltLen := rfl
@[simp] theorem State.hardReset_mkey (P : Params) (s : State) (ram : Ram) : (s.hardReset P ram).mkey = ram.mkey := rfl
@[simp] theorem State.hardReset_msalt (P : Params) (s : State) (ram : Ram) : (s.hardReset P ram).msalt = ram.msalt := rfl
@[simp] theorem State.hardReset_ekey (P : Params) (s : State) (ram : Ram) : (s.hardReset P ram).ekey = ram.ekey := rfl
@[simp] theorem State.hardReset_salt (P : Params) (s : State) (ram : Ram) : (s.hardReset P ram).salt = ram.salt := rfl
@[simp] theorem State.hardReset_akey (P : Params) (s : State) (ram : Ram) : (s.hardReset P ram).akey = ram.akey := rfl
@[simp] theorem State.hardReset_mki (P : Params) (s : State) (ram : Ram) : (s.hardReset P ram).mki = ram.mki := rfl
@[simp] theorem State.hardReset_rxMki (P : Params) (s : State) (ram : Ram) : (s.hardReset P ram).rxMki = State.reset.rxMki := rfl
@[simp] theorem State.hardReset_ivreg (P : Params) (s : State) (ram : Ram) : (s.hardReset P ram).ivreg = State.reset.ivreg := rfl
@[simp] theorem State.hardReset_ivpreg (P : Params) (s : State) (ram : Ram) : (s.hardReset P ram).ivpreg = State.reset.ivpreg := rfl
@[simp] theorem State.hardReset_res (P : Params) (s : State) (ram : Ram) : (s.hardReset P ram).res = State.reset.res := rfl
@[simp] theorem State.hardReset_pkt (P : Params) (s : State) (ram : Ram) : (s.hardReset P ram).pkt = Memory.store [] 0 (ram.pkt.take P.pktCap) := rfl
@[simp] theorem State.hardReset_schedule (P : Params) (s : State) (ram : Ram) : (s.hardReset P ram).schedule = s.schedule := rfl
@[simp] theorem State.hardReset_readData (P : Params) (s : State) (ram : Ram) : (s.hardReset P ram).readData = s.readData := rfl
@[simp] theorem State.hardReset_draws (P : Params) (s : State) (ram : Ram) : (s.hardReset P ram).draws = s.draws := rfl

end Sys2Proof.Machine
end

