-- ==== Sys2Proof/Laws/Bus.lean ====
section
/-! SUPPORT. Where the registers lie: which offsets select STATUS and CTRL, what the map holds, and what a host access does. -/

namespace Sys2Proof.Machine

theorem windowAt_cases (rows : List WindowRow) (off : Nat) :
    windowAt rows off = .unmapped ∨ ∃ n k, windowAt rows off = .window n k := by
  induction rows with
  | nil => exact .inl rfl
  | cons r rs ih =>
    unfold windowAt
    split
    · exact .inr ⟨_, _, rfl⟩
    · exact ih

/-- A target that is no window, no PKT byte and not unmapped is a register's. -/
theorem targetOf_register {off : Nat} {t : Target} (h : targetOf off = t) (h1 : t ≠ .unmapped) (h2 : ∀ n k, t ≠ .window n k)
    (h3 : ∀ k, t ≠ .pkt k) : off < 0x100 ∧ registerAt off = t := by
  unfold targetOf at h
  split at h
  · exact absurd h.symm (h3 _)
  · split at h
    · rcases windowAt_cases windowRows off with hw | ⟨n, k, hw⟩ <;> rw [hw] at h
      · exact absurd h.symm h1
      · exact absurd h.symm (h2 n k)
    · exact ⟨by omega, h⟩

theorem targetOf_status_iff (off : Nat) : targetOf off = .status ↔ off = 0x00C := by
  constructor
  · intro h
    have hr := (targetOf_register h (by decide) (by simp) (by simp)).2
    unfold registerAt at hr
    split at hr <;> cases hr
    rfl
  · rintro rfl; rfl

theorem targetOf_ctrl_iff (off : Nat) : targetOf off = .ctrl ↔ off = 0x008 := by
  constructor
  · intro h
    have hr := (targetOf_register h (by decide) (by simp) (by simp)).2
    unfold registerAt at hr
    split at hr <;> cases hr
    rfl
  · rintro rfl; rfl

theorem inMap_iff (P : Params) (off : Nat) : inMap P off = true ↔ off < 0x1000 ∨ off - 0x1000 < P.pktCap := by simp [inMap]

/-- The accesses that select a word of this instance's map (R80, R85). -/
theorem selects_iff (off : Nat) : selects Config.params off = true ↔ AlignedInMap off := by
  simp [selects, inMap, AlignedInMap, and_comm]

/-- An access that selects nothing reads 0 (R81, R85). -/
theorem hostRead_of_not_selects {off : Nat} (h : ¬ AlignedInMap off) (s : State) : hostRead off s = .next { s with readData := 0 } := by
  rw [← selects_iff] at h
  simp [hostRead, hostReadWith, h]

/-- An access that selects nothing is ignored (R81, R85). -/
theorem hostWrite_of_not_selects {off : Nat} (h : ¬ AlignedInMap off) (v : Word) (s : State) : hostWrite off v s = .next s := by
  rw [← selects_iff] at h
  simp [hostWrite, hostWriteWith, h]

/-- A read while BUSY = 0 returns the word of the map (R31, R82). -/
theorem hostRead_idle {off : Nat} (h : AlignedInMap off) {s : State} (hb : s.status.busy = false) :
    hostRead off s = .next { s with readData := s.readTarget (targetOf off) } := by
  rw [← selects_iff] at h
  simp [hostRead, hostReadWith, h, hb]

/-- A write while BUSY = 0 does what the word of the map does (R31, R82). -/
theorem hostWrite_idle {off : Nat} (h : AlignedInMap off) (v : Word) {s : State} (hb : s.status.busy = false) :
    hostWrite off v s = .next (s.writeTarget (targetOf off) v) := by
  rw [← selects_iff] at h
  simp [hostWrite, hostWriteWith, h, hb]

/-- All that a read can do: record a reply, and count a draw or not (R84, R88). -/
theorem hostRead_cases (off : Nat) (s : State) :
    ∃ w d, hostRead off s = .next { s with readData := w, draws := d } := by
  unfold hostRead hostReadWith
  split_ifs <;> exact ⟨_, _, rfl⟩

/-- All that a write can do: nothing, set WBUSY while BUSY = 1, or what the word of the map does (R81, R84, R88). -/
theorem hostWrite_cases (off : Nat) (v : Word) (s : State) :
    hostWrite off v s = .next s ∨
    (s.status.busy = true ∧ off ≠ 0x00C ∧ hostWrite off v s = .next { s with status := { s.status with wbusy := true } }) ∨
    (AlignedInMap off ∧ (s.status.busy = true → off = 0x00C) ∧ hostWrite off v s = .next (s.writeTarget (targetOf off) v)) := by
  unfold hostWrite hostWriteWith
  split_ifs with h1 h2
  · exact .inl rfl
  · rw [Bool.and_eq_true, decide_eq_true_eq] at h2
    exact .inr (.inl ⟨h2.1, fun he => h2.2 ((targetOf_status_iff off).2 he), rfl⟩)
  · refine .inr (.inr ⟨(selects_iff off).1 (by simpa using h1), fun hb => ?_, rfl⟩)
    rw [← targetOf_status_iff]
    simpa [hb] using h2

/-- What a read returns does not depend on what earlier reads returned or drew. -/
theorem State.readTarget_block (s : State) (t : Target) : s.block.readTarget t = s.readTarget t := by
  cases t <;> rfl

end Sys2Proof.Machine
end

