-- ==== Sys2Proof/Laws/Bytes.lean ====
section
/-! SUPPORT. Laws of byte strings: lengths, big-endian round trips, windows, XOR. -/

namespace Sys2Proof.Machine

@[simp] theorem length_beBytes (n v : Nat) : (beBytes n v).length = n := by
  induction n with
  | zero => rfl
  | succ n ih => simp [beBytes, ih]

@[simp] theorem length_zeros (n : Nat) : (zeros n).length = n := by simp [zeros]

@[simp] theorem length_xorBytes (s t : List Byte) : (xorBytes s t).length = min s.length t.length := by
  simp [xorBytes]

theorem length_putAt (s t : List Byte) (a : Nat) (h : a + t.length ≤ s.length) :
    (putAt s a t).length = s.length := by
  simp [putAt]; omega

theorem length_xorAt (s t : List Byte) (a : Nat) (h : a + t.length ≤ s.length) :
    (xorAt s a t).length = s.length := by
  have ht : (xorBytes (slice s a t.length) t).length = t.length := by simp [slice]; omega
  rw [xorAt, length_putAt _ _ _ (by omega)]

@[simp] theorem toList_length_fit (n : Nat) (s : List Byte) : (fit n s).toList.length = n := by simp

/-- A byte string of the right length is the window's contents. -/
theorem toList_fit {n : Nat} (s : List Byte) (h : s.length = n) : (fit n s).toList = s := by
  simp [fit, ← h]

theorem toList_fit_eq_take (n : Nat) (s : List Byte) : (fit n s).toList = (s ++ zeros n).take n := by
  simp [fit]

@[simp] theorem fit_toList {n : Nat} (v : Vector Byte n) : fit n v.toList = v := by
  apply Vector.toList_inj.mp
  exact toList_fit _ (by simp)

theorem fit_inj {n : Nat} {s t : List Byte} (hs : s.length = n) (ht : t.length = n) (h : fit n s = fit n t) : s = t := by
  rw [← toList_fit s hs, ← toList_fit t ht, h]

/-- A window holds the bytes that were put into it, and the rest as before. -/
theorem toList_putWindow {n : Nat} (w : Vector Byte n) (a : Nat) (t : List Byte) (h : a + t.length ≤ n) :
    (putWindow w a t).toList = putAt w.toList a t := by
  rw [putWindow, toList_fit]
  rw [length_putAt _ _ _ (by simpa using h)]
  simp

theorem beRead_append (s t : List Byte) : beRead (s ++ t) = beRead s * 256 ^ t.length + beRead t := by
  have key : ∀ (t : List Byte) (acc : Nat),
      t.foldl (fun acc b => acc * 256 + b.toNat) acc = acc * 256 ^ t.length + t.foldl (fun acc b => acc * 256 + b.toNat) 0 := by
    intro t
    induction t with
    | nil => simp
    | cons b t ih =>
      intro acc
      simp only [List.foldl_cons, List.length_cons]
      rw [ih (acc * 256 + b.toNat), ih (0 * 256 + b.toNat)]
      ring
  rw [beRead, List.foldl_append, key]
  rfl

@[simp] theorem beRead_nil : beRead [] = 0 := rfl

theorem beRead_cons (b : Byte) (s : List Byte) : beRead (b :: s) = b.toNat * 256 ^ s.length + beRead s := by
  have h := beRead_append [b] s
  simpa [beRead] using h

theorem beRead_lt (s : List Byte) : beRead s < 256 ^ s.length := by
  induction s with
  | nil => simp
  | cons b s ih =>
    rw [beRead_cons, List.length_cons, pow_succ]
    have hb : b.toNat ≤ 255 := by have := b.isLt; omega
    calc b.toNat * 256 ^ s.length + beRead s < b.toNat * 256 ^ s.length + 256 ^ s.length := by omega
      _ = (b.toNat + 1) * 256 ^ s.length := by ring
      _ ≤ 256 * 256 ^ s.length := Nat.mul_le_mul_right _ (by omega)
      _ = 256 ^ s.length * 256 := by ring

/-- `be_read` is the inverse of `beN` (R10). -/
theorem beRead_beBytes (n v : Nat) : beRead (beBytes n v) = v % 256 ^ n := by
  induction n generalizing v with
  | zero => simp [beBytes, Nat.mod_one]
  | succ n ih =>
    have h : v % 256 ^ (n + 1) = v % 256 ^ n + 256 ^ n * (v / 256 ^ n % 256) := by rw [pow_succ, Nat.mod_mul]
    rw [beBytes, beRead_cons, ih, length_beBytes, BitVec.toNat_ofNat, h, Nat.mul_comm, Nat.add_comm]

theorem beBytes_mod (n v : Nat) : beBytes n (v % 256 ^ n) = beBytes n v := by
  suffices h : ∀ k, n ≤ k → beBytes n (v % 256 ^ k) = beBytes n v from h n le_rfl
  intro k hk
  induction n with
  | zero => rfl
  | succ n ih =>
    rw [beBytes, beBytes, ih (by omega)]
    congr 1
    apply BitVec.eq_of_toNat_eq
    rw [BitVec.toNat_ofNat, BitVec.toNat_ofNat]
    obtain ⟨d, rfl⟩ : ∃ d, k = n + 1 + d := ⟨k - (n + 1), by omega⟩
    have h1 : (256 : Nat) ^ (n + 1 + d) = 256 ^ n * (256 * 256 ^ d) := by ring
    rw [h1, Nat.mod_mul_right_div_self]
    show v / 256 ^ n % (256 * 256 ^ d) % 256 = v / 256 ^ n % 256
    rw [Nat.mod_mul_right_mod]

/-- `beN` is the inverse of `be_read` (R10). -/
theorem beBytes_beRead (s : List Byte) : beBytes s.length (beRead s) = s := by
  induction s with
  | nil => rfl
  | cons b s ih =>
    rw [List.length_cons, beBytes]
    congr 1
    · rw [beRead_cons, Nat.add_comm, Nat.add_mul_div_right _ _ (by positivity), Nat.div_eq_of_lt (beRead_lt s)]
      simp
    · rw [beRead_cons, ← beBytes_mod]
      rw [Nat.add_comm, Nat.add_mul_mod_self_right, beBytes_mod, ih]

/-- XOR with the same bytes twice gives the bytes back. -/
theorem xorBytes_xorBytes (s t : List Byte) (h : s.length ≤ t.length) : xorBytes (xorBytes s t) t = s := by
  induction s generalizing t with
  | nil => simp [xorBytes]
  | cons a s ih =>
    cases t with
    | nil => simp at h
    | cons b t =>
      have := ih t (by simpa using h)
      simp only [xorBytes, List.zipWith_cons_cons, List.cons.injEq] at this ⊢
      exact ⟨by simp, this⟩

theorem xorBytes_append (s s' t t' : List Byte) (h : s.length = t.length) :
    xorBytes (s ++ s') (t ++ t') = xorBytes s t ++ xorBytes s' t' := by
  simp [xorBytes, List.zipWith_append h]

theorem xorBytes_take (s t : List Byte) (n : Nat) : (xorBytes s t).take n = xorBytes (s.take n) (t.take n) := by
  simp [xorBytes, List.take_zipWith]

theorem xorBytes_zeros (t : List Byte) (n : Nat) (h : t.length ≤ n) : xorBytes (zeros n) t = t := by
  induction t generalizing n with
  | nil => simp [xorBytes]
  | cons b t ih =>
    cases n with
    | zero => simp at h
    | succ n =>
      have := ih n (by simpa using h)
      simp only [xorBytes, zeros, List.replicate_succ, List.zipWith_cons_cons] at this ⊢
      rw [this]; simp

theorem xorBytes_zeros_right (t : List Byte) (n : Nat) (h : t.length = n) : xorBytes t (zeros n) = t := by
  induction t generalizing n with
  | nil => simp [xorBytes]
  | cons b t ih =>
    subst h
    have := ih _ rfl
    simp only [xorBytes, zeros, List.length_cons, List.replicate_succ, List.zipWith_cons_cons] at this ⊢
    rw [this]; simp

/-- XOR into a part of a byte string is XOR with the part's bytes and zeros around them. -/
theorem xorAt_eq (x t : List Byte) (a : Nat) (h : a + t.length ≤ x.length) :
    xorAt x a t = xorBytes x (zeros a ++ (t ++ zeros (x.length - a - t.length))) := by
  have hx : x = x.take a ++ (slice x a t.length ++ x.drop (a + t.length)) := by
    rw [slice, ← List.drop_drop, List.take_append_drop, List.take_append_drop]
  have l1 : (x.take a).length = a := by simp; omega
  have l2 : (slice x a t.length).length = t.length := by simp [slice]; omega
  have l3 : (x.drop (a + t.length)).length = x.length - a - t.length := by simp; omega
  have e : (xorBytes (slice x a t.length) t).length = t.length := by simp [l2]
  rw [xorAt, putAt, e, List.append_assoc]
  have hz : xorBytes x (zeros a ++ (t ++ zeros (x.length - a - t.length))) =
      xorBytes (x.take a ++ (slice x a t.length ++ x.drop (a + t.length)))
        (zeros a ++ (t ++ zeros (x.length - a - t.length))) := by rw [← hx]
  rw [hz, xorBytes_append _ _ _ _ (by rw [l1]; simp), xorBytes_append _ _ _ _ l2, xorBytes_zeros_right _ _ l1,
    xorBytes_zeros_right _ _ l3]

@[simp] theorem beRead_zeros (n : Nat) : beRead (zeros n) = 0 := by
  induction n with
  | zero => rfl
  | succ n ih => rw [show zeros (n + 1) = (0 : Byte) :: zeros n from rfl, beRead_cons, ih]; simp

/-- XOR of byte strings of one length is XOR of the integers they stand for. -/
theorem beRead_xorBytes (s t : List Byte) (h : s.length = t.length) : beRead (xorBytes s t) = beRead s ^^^ beRead t := by
  induction s generalizing t with
  | nil => cases t <;> simp_all [xorBytes]
  | cons a s ih =>
    cases t with
    | nil => simp at h
    | cons b t =>
      have hl : s.length = t.length := by simpa using h
      have hs : beRead s < 2 ^ (8 * s.length) := by rw [pow_mul]; exact beRead_lt s
      have ht : beRead t < 2 ^ (8 * s.length) := by rw [pow_mul, hl]; exact beRead_lt t
      have e : xorBytes (a :: s) (b :: t) = (a ^^^ b) :: xorBytes s t := rfl
      have lx : (xorBytes s t).length = s.length := by simp [hl]
      rw [e, beRead_cons, beRead_cons, beRead_cons, ih t hl, lx, ← hl, BitVec.toNat_xor]
      have p : (256 : Nat) ^ s.length = 2 ^ (8 * s.length) := by rw [pow_mul]; rfl
      rw [p, Nat.mul_comm, Nat.mul_comm a.toNat, Nat.mul_comm b.toNat]
      apply Nat.eq_of_testBit_eq
      intro i
      rw [Nat.testBit_xor, Nat.testBit_two_pow_mul_add _ (Nat.xor_lt_two_pow hs ht), Nat.testBit_two_pow_mul_add _ hs,
        Nat.testBit_two_pow_mul_add _ ht]
      split <;> rw [Nat.testBit_xor]

end Sys2Proof.Machine
end

