-- ==== Sys2Proof/Laws/Memory.lean ====
section
/-! SUPPORT. Laws of the packet buffer: read after write, loads and stores, the canonical form, the bound. -/

namespace Sys2Proof.Machine

@[simp] theorem Memory.read_nil (a : Nat) : Memory.read [] a = Memory.unlisted := rfl

theorem Memory.read_cell_of_below (a a' : Nat) (b : Byte) (rest : Memory) (h : a' ≠ a) :
    Memory.read (Memory.cell a b rest) a' = Memory.read rest a' := by
  unfold Memory.cell
  split
  · rfl
  · simp [Memory.read, Ne.symm h]

/-- An offset below every listed one reads as unlisted. -/
theorem Memory.read_of_wfFrom {lo : Nat} {m : Memory} (h : Memory.wfFrom lo m = true) {a : Nat} (ha : a < lo) :
    Memory.read m a = Memory.unlisted := by
  induction m generalizing lo with
  | nil => rfl
  | cons c m ih =>
    obtain ⟨k, v⟩ := c
    simp only [Memory.wfFrom, Bool.and_eq_true, decide_eq_true_eq] at h
    rw [Memory.read, if_neg (by omega)]
    exact ih h.2.2 (by omega)

theorem Memory.wfFrom_mono {lo lo' : Nat} {m : Memory} (h : Memory.wfFrom lo m = true) (hl : lo' ≤ lo) :
    Memory.wfFrom lo' m = true := by
  cases m with
  | nil => rfl
  | cons c m =>
    obtain ⟨k, v⟩ := c
    simp only [Memory.wfFrom, Bool.and_eq_true, decide_eq_true_eq] at h ⊢
    exact ⟨by omega, h.2⟩

/-- A write leaves every other byte alone. -/
theorem Memory.read_write_other (m : Memory) (a a' : Nat) (b : Byte) (h : a' ≠ a) :
    (m.write a b).read a' = m.read a' := by
  induction m with
  | nil => exact Memory.read_cell_of_below a a' b [] h
  | cons c m ih =>
    obtain ⟨k, v⟩ := c
    unfold Memory.write
    split
    · exact Memory.read_cell_of_below a a' b _ h
    · split
      · next hk =>
        rw [Memory.read_cell_of_below _ _ _ _ h, Memory.read, if_neg (by omega)]
      · simp only [Memory.read]
        split
        · rfl
        · exact ih

theorem Memory.read_write_same_from {lo : Nat} {m : Memory} (hm : Memory.wfFrom lo m = true) (a : Nat) (b : Byte) :
    (m.write a b).read a = b := by
  have hcell : ∀ rest : Memory, Memory.read rest a = Memory.unlisted → Memory.read (Memory.cell a b rest) a = b := by
    intro rest hr
    unfold Memory.cell
    split
    · next h => rw [hr, h]
    · simp [Memory.read]
  induction m generalizing lo with
  | nil => exact hcell [] rfl
  | cons c m ih =>
    obtain ⟨k, v⟩ := c
    simp only [Memory.wfFrom, Bool.and_eq_true, decide_eq_true_eq] at hm
    unfold Memory.write
    split
    · next h =>
      apply hcell
      rw [Memory.read, if_neg (by omega)]
      exact Memory.read_of_wfFrom hm.2.2 (by omega)
    · split
      · next h => exact hcell _ (Memory.read_of_wfFrom hm.2.2 (by omega))
      · next h1 h2 =>
        rw [Memory.read, if_neg (by omega)]
        exact ih hm.2.2

/-- A read after a write to the same offset gives the byte written. -/
theorem Memory.read_write_same {m : Memory} (hm : m.wf = true) (a : Nat) (b : Byte) : (m.write a b).read a = b :=
  Memory.read_write_same_from hm a b

theorem Memory.wfFrom_cell {lo a : Nat} {b : Byte} {rest : Memory} (hl : lo ≤ a) (h : Memory.wfFrom (a + 1) rest = true) :
    Memory.wfFrom lo (Memory.cell a b rest) = true := by
  unfold Memory.cell
  split
  · exact Memory.wfFrom_mono h (by omega)
  · next hb => simp [Memory.wfFrom, hl, hb, h]

theorem Memory.wfFrom_write {lo : Nat} {m : Memory} (hm : Memory.wfFrom lo m = true) (a : Nat) (b : Byte) :
    Memory.wfFrom (min lo a) (m.write a b) = true := by
  induction m generalizing lo with
  | nil => exact Memory.wfFrom_cell (by omega) rfl
  | cons c m ih =>
    obtain ⟨k, v⟩ := c
    have hm' := hm
    simp only [Memory.wfFrom, Bool.and_eq_true, decide_eq_true_eq] at hm
    unfold Memory.write
    split
    · next h =>
      apply Memory.wfFrom_cell (by omega)
      simp only [Memory.wfFrom, Bool.and_eq_true, decide_eq_true_eq]
      exact ⟨by omega, hm.2⟩
    · split
      · next h1 h => subst h; exact Memory.wfFrom_cell (by omega) hm.2.2
      · next h1 h2 =>
        have := ih hm.2.2
        simp only [Memory.wfFrom, Bool.and_eq_true, decide_eq_true_eq]
        exact ⟨by omega, hm.2.1, Memory.wfFrom_mono this (by omega)⟩

/-- A write keeps the canonical form. -/
theorem Memory.wf_write {m : Memory} (hm : m.wf = true) (a : Nat) (b : Byte) : (m.write a b).wf = true := by
  have := Memory.wfFrom_write hm a b
  simpa [Memory.wf] using this

/-- A store keeps the canonical form. -/
theorem Memory.wf_store {m : Memory} (hm : m.wf = true) (a : Nat) (bs : List Byte) : (m.store a bs).wf = true := by
  induction bs generalizing m a with
  | nil => exact hm
  | cons b bs ih => exact ih (Memory.wf_write hm a b) (a + 1)

@[simp] theorem Memory.store_nil (m : Memory) (a : Nat) : m.store a [] = m := rfl

/-- A store leaves every byte outside `[a, a + len)` alone. -/
theorem Memory.read_store_outside (m : Memory) (a : Nat) (bs : List Byte) (a' : Nat) (h : a' < a ∨ a + bs.length ≤ a') :
    (m.store a bs).read a' = m.read a' := by
  induction bs generalizing m a with
  | nil => rfl
  | cons b bs ih =>
    simp only [List.length_cons] at h
    rw [Memory.store, ih _ _ (by omega), Memory.read_write_other _ _ _ _ (by omega)]

/-- A store's bytes are read back. -/
theorem Memory.read_store_inside {m : Memory} (hm : m.wf = true) (a : Nat) (bs : List Byte) (k : Nat) (hk : k < bs.length) :
    (m.store a bs).read (a + k) = bs[k] := by
  induction bs generalizing m a k with
  | nil => simp at hk
  | cons b bs ih =>
    cases k with
    | zero =>
      rw [Memory.store, Memory.read_store_outside _ _ _ _ (by omega)]
      simpa using Memory.read_write_same hm a b
    | succ k =>
      have := ih (m := m.write a b) (Memory.wf_write hm a b) (a + 1) k (by simpa using hk)
      simp only [Memory.store, List.getElem_cons_succ]
      rw [← this]
      congr 1
      omega

@[simp] theorem Memory.length_load (m : Memory) (a n : Nat) : (m.load a n).length = n := by
  induction n generalizing a with
  | zero => rfl
  | succ n ih => simp [Memory.load, ih]

theorem Memory.getElem_load (m : Memory) (a n k : Nat) (h : k < (m.load a n).length) :
    (m.load a n)[k] = m.read (a + k) := by
  induction n generalizing a k with
  | zero => simp [Memory.load] at h
  | succ n ih =>
    cases k with
    | zero => rfl
    | succ k =>
      simp only [Memory.load, List.getElem_cons_succ]
      rw [ih]
      congr 1
      omega

/-- Two buffers that agree on a range give the same load. -/
theorem Memory.load_congr {m m' : Memory} {a n : Nat} (h : ∀ k, k < n → m.read (a + k) = m'.read (a + k)) :
    m.load a n = m'.load a n := by
  apply List.ext_getElem (by simp)
  intro k h1 h2
  rw [Memory.getElem_load, Memory.getElem_load]
  exact h k (by simpa using h1)

/-- A load of just the stored bytes gives them back. -/
theorem Memory.load_store_same {m : Memory} (hm : m.wf = true) (a : Nat) (bs : List Byte) :
    (m.store a bs).load a bs.length = bs := by
  apply List.ext_getElem (by simp)
  intro k h1 h2
  rw [Memory.getElem_load, Memory.read_store_inside hm]

/-- A load that does not meet the stored bytes is unchanged. -/
theorem Memory.load_store_disjoint (m : Memory) (a : Nat) (bs : List Byte) (a' n : Nat)
    (h : a' + n ≤ a ∨ a + bs.length ≤ a') : (m.store a bs).load a' n = m.load a' n :=
  Memory.load_congr fun k hk => Memory.read_store_outside _ _ _ _ (by omega)

theorem Memory.load_append (m : Memory) (a n n' : Nat) : m.load a (n + n') = m.load a n ++ m.load (a + n) n' := by
  apply List.ext_getElem (by simp)
  intro k h1 h2
  rw [Memory.getElem_load]
  by_cases hk : k < n
  · rw [List.getElem_append_left (by simpa using hk), Memory.getElem_load]
  · rw [List.getElem_append_right (by simpa using hk), Memory.getElem_load]
    congr 1
    simp
    omega

theorem Memory.below_write {m : Memory} {n : Nat} (h : m.below n = true) {a : Nat} (ha : a < n) (b : Byte) :
    (m.write a b).below n = true := by
  have hcell : ∀ rest : Memory, rest.below n = true → (Memory.cell a b rest).below n = true := by
    intro rest hr
    unfold Memory.cell
    split
    · exact hr
    · simpa [Memory.below, ha] using hr
  induction m with
  | nil => exact hcell [] rfl
  | cons c m ih =>
    obtain ⟨k, v⟩ := c
    have h' : k < n ∧ Memory.below m n = true := by simpa [Memory.below] using h
    unfold Memory.write
    split
    · exact hcell _ h
    · split
      · exact hcell _ h'.2
      · have := ih h'.2
        simpa [Memory.below, h'.1] using this

/-- A store inside `[0, n)` lists no offset at or beyond `n`. -/
theorem Memory.below_store {m : Memory} {n : Nat} (h : m.below n = true) (a : Nat) (bs : List Byte) (ha : a + bs.length ≤ n) :
    (m.store a bs).below n = true := by
  induction bs generalizing m a with
  | nil => exact h
  | cons b bs ih =>
    simp only [List.length_cons] at ha
    exact ih (Memory.below_write h (by omega) b) (a + 1) (by omega)

/-- Canonical buffers that read the same everywhere are equal. -/
theorem Memory.ext_read_from {lo : Nat} {m m' : Memory} (hm : Memory.wfFrom lo m = true) (hm' : Memory.wfFrom lo m' = true)
    (h : ∀ a, m.read a = m'.read a) : m = m' := by
  induction m generalizing lo m' with
  | nil =>
    cases m' with
    | nil => rfl
    | cons c m' =>
      obtain ⟨k, v⟩ := c
      simp only [Memory.wfFrom, Bool.and_eq_true, decide_eq_true_eq] at hm'
      have := h k
      simp [Memory.read] at this
      exact absurd this.symm hm'.2.1
  | cons c m ih =>
    obtain ⟨k, v⟩ := c
    cases m' with
    | nil =>
      simp only [Memory.wfFrom, Bool.and_eq_true, decide_eq_true_eq] at hm
      have := h k
      simp [Memory.read] at this
      exact absurd this hm.2.1
    | cons c' m' =>
      obtain ⟨k', v'⟩ := c'
      simp only [Memory.wfFrom, Bool.and_eq_true, decide_eq_true_eq] at hm hm'
      have hk : k = k' := by
        rcases Nat.lt_trichotomy k k' with hlt | heq | hlt
        · exfalso
          have h1 := h k
          rw [Memory.read, if_pos rfl, Memory.read, if_neg (by omega), Memory.read_of_wfFrom hm'.2.2 (by omega)] at h1
          exact hm.2.1 h1
        · exact heq
        · exfalso
          have h1 := h k'
          rw [Memory.read, if_neg (by omega), Memory.read_of_wfFrom hm.2.2 (by omega), Memory.read, if_pos rfl] at h1
          exact hm'.2.1 h1.symm
      subst hk
      have hv : v = v' := by have := h k; simpa [Memory.read] using this
      subst hv
      congr 1
      apply ih hm.2.2 hm'.2.2
      intro a
      by_cases ha : k = a
      · subst ha
        rw [Memory.read_of_wfFrom hm.2.2 (by omega), Memory.read_of_wfFrom hm'.2.2 (by omega)]
      · have := h a
        simpa [Memory.read, ha] using this

/-- Equal memories are equal data: canonical buffers that read the same everywhere are equal. -/
theorem Memory.ext_read {m m' : Memory} (hm : m.wf = true) (hm' : m'.wf = true) (h : ∀ a, m.read a = m'.read a) : m = m' :=
  Memory.ext_read_from hm hm' h

end Sys2Proof.Machine
end

