-- ==== Sys2Proof/Laws/Cipher.lean ====
section
/-! SUPPORT. Lengths of what the cipher functions give, so that stores stay where the checks allow them, and the AES-CM
keystream block by block. -/

namespace Sys2Proof.Machine

theorem length_saltAlign14 (salt : List Byte) : (saltAlign14 salt).length = 14 := by
  unfold saltAlign14
  split <;> simp <;> omega

@[simp] theorem length_cmBlocks (P : Params) (pu : Purpose) (key : List Byte) (iv : Block) (j nb : Nat) :
    (cmBlocks P pu key iv j nb).length = 16 * nb := by
  induction nb generalizing j with
  | zero => rfl
  | succ nb ih => simp [cmBlocks, ih]; omega

/-- Block `i` of the AES-CM keystream from block `j` on (R133, R134). -/
theorem cmBlocks_block (P : Params) (pu : Purpose) (key : List Byte) (iv : Block) (j nb i : Nat) (h : i < nb) :
    ((cmBlocks P pu key iv j nb).drop (16 * i)).take 16 = (P.cipher key (ctrBlock iv (j + i))).toList := by
  induction nb generalizing i j with
  | zero => omega
  | succ nb ih =>
    have hl : (encryptBlock P pu key (ctrBlock iv j)).toList.length = 16 := by simp
    cases i with
    | zero => rw [cmBlocks, Nat.mul_zero, List.drop_zero, List.take_left' hl]; rfl
    | succ i =>
      rw [cmBlocks, show 16 * (i + 1) = 16 + 16 * i by omega, ← List.drop_drop, List.drop_left' hl, ih _ _ (by omega),
        Nat.add_assoc, Nat.add_comm 1 i]

theorem le_mul_ceilDiv (n : Nat) : n ≤ 16 * ceilDiv n 16 := by unfold ceilDiv; omega

@[simp] theorem length_cmKeystream (P : Params) (pu : Purpose) (key : List Byte) (iv : Block) (n : Nat) :
    (cmKeystream P pu key iv n).length = n := by
  have := le_mul_ceilDiv n
  simp [cmKeystream]; omega

@[simp] theorem length_cmXor (P : Params) (pu : Purpose) (key : List Byte) (iv : Block) (data : List Byte) :
    (cmXor P pu key iv data).length = data.length := by simp [cmXor]

@[simp] theorem length_kdf (P : Params) (pu : Purpose) (label : Byte) (n : Nat) (mkey msalt : List Byte) (kdr : Word)
    (index : Nat) (w : RWidth) : (kdf P pu label n mkey msalt kdr index w).length = n := by simp [kdf]

theorem length_f8Blocks (P : Params) (pu : Purpose) (key : List Byte) (ivp : Block) (dir : Dir) (j : Nat) (fb : Block)
    (data : List Byte) (nb : Nat) : (f8Blocks P pu key ivp dir j fb data nb).length = min data.length (16 * nb) := by
  induction nb generalizing j fb data with
  | zero => simp [f8Blocks]
  | succ nb ih => simp [f8Blocks, ih]; omega

@[simp] theorem length_f8Process (P : Params) (pu : Purpose) (key : List Byte) (ivp : Block) (data : List Byte) (dir : Dir) :
    (f8Process P pu key ivp data dir).length = data.length := by
  have := le_mul_ceilDiv data.length
  rw [f8Process, length_f8Blocks]; omega

@[simp] theorem length_payloadXform (P : Params) (alg : Enc) (cls : Cls) (dir : Dir) (key salt : List Byte) (cmIv f8Iv : Block)
    (data : List Byte) : (payloadXform P alg cls dir key salt cmIv f8Iv data).length = data.length := by
  cases alg <;> simp [payloadXform]

@[simp] theorem length_srtpXform (P : Params) (s : State) (dir : Dir) (data : List Byte) :
    (s.srtpXform P dir data).length = data.length := by simp [State.srtpXform]

@[simp] theorem length_srtcpXform (P : Params) (s : State) (dir : Dir) (i31 : BitVec 31) (e : Bool) (data : List Byte) :
    (s.srtcpXform P dir i31 e data).length = data.length := by simp [State.srtcpXform]

@[simp] theorem length_authTag (P : Params) (c : Cfg) (akey msg : List Byte) : (authTag P c akey msg).length = c.t := by
  by_cases h : c.auth = 0#4 <;> simp [authTag, Cfg.t, h]

/-- A header that the parse accepts ends at or before its limit and has at least 12 bytes (R211). -/
theorem rtpHdrLen_bounds {p : Memory} {limit h : Nat} (hh : rtpHdrLen p limit = some h) : 12 ≤ h ∧ h ≤ limit := by
  unfold rtpHdrLen at hh
  split at hh
  · cases hh
  · dsimp only at hh
    split at hh
    · cases hh
    · split at hh
      · split at hh
        · cases hh
        · split at hh
          · cases hh
          · cases hh; omega
      · cases hh; omega

/-- PKT_CAP is a legal capacity (R7). -/
theorem pktCap_bounds : 64 ≤ Config.params.pktCap ∧ Config.params.pktCap ≤ 61440 := by
  have := Config.pktCapExtraWords.isLt
  simp only [Config.params, Config.pktCap]
  omega

end Sys2Proof.Machine
end

