-- ==== Sys2Proof/Laws/Command.lean ====
section
/-! SUPPORT. What a command can do (R273, R274): the first check that fails, or the command's writes. -/

namespace Sys2Proof.Machine

@[simp] theorem firstRaised_nil : firstRaised [] = none := rfl

@[simp] theorem firstRaised_cons (b : Bool) (c : Code) (rest : List Check) :
    firstRaised ((b, c) :: rest) = if b then some c else firstRaised rest := rfl

theorem firstRaised_append (xs ys : List Check) :
    firstRaised (xs ++ ys) = match firstRaised xs with | some c => some c | none => firstRaised ys := by
  induction xs with
  | nil => rfl
  | cons x xs ih =>
    obtain ⟨b, c⟩ := x
    cases b <;> simp [ih]

/-- The code of two lists one after the other, when no check raising one means `d`. -/
theorem firstRaised_append_getD (xs ys : List Check) (d : Code) :
    (firstRaised (xs ++ ys)).getD d = (firstRaised xs).getD ((firstRaised ys).getD d) := by
  rw [firstRaised_append]; cases firstRaised xs <;> rfl

/-- A raised code is the code of one of the checks. -/
theorem firstRaised_mem {checks : List Check} {c : Code} (h : firstRaised checks = some c) : (true, c) ∈ checks := by
  induction checks with
  | nil => simp at h
  | cons x xs ih =>
    obtain ⟨b, c'⟩ := x
    cases b
    · exact List.mem_cons_of_mem _ (ih (by simpa using h))
    · simp at h; simp [h]

theorem firstRaised_eq_none {checks : List Check} : firstRaised checks = none ↔ ∀ x ∈ checks, x.1 = false := by
  induction checks with
  | nil => simp
  | cons x xs ih =>
    obtain ⟨b, c⟩ := x
    cases b <;> simp [ih]

/-- A command always completes: with the first code its checks raise and STATUS alone changed, or with OK and its writes. -/
theorem runCommand_cases (s : State) (checks : List Check) (done : State) :
    (∃ c, firstRaised checks = some c ∧ runCommand s checks done = .next (s.complete c)) ∨
    (firstRaised checks = none ∧ runCommand s checks done = .next (done.complete .ok)) := by
  unfold runCommand
  cases h : firstRaised checks with
  | some c => exact .inl ⟨c, rfl, rfl⟩
  | none => exact .inr ⟨rfl, rfl⟩

theorem runCommand_of_some {s : State} {checks : List Check} {done : State} {c : Code} (h : firstRaised checks = some c) :
    runCommand s checks done = .next (s.complete c) := by
  simp [runCommand, h]

theorem runCommand_of_none {s : State} {checks : List Check} {done : State} (h : firstRaised checks = none) :
    runCommand s checks done = .next (done.complete .ok) := by
  simp [runCommand, h]

/-- What `runCommand` answers, read backwards. -/
theorem runCommand_next {s : State} {checks : List Check} {done t : State} (h : runCommand s checks done = .next t) :
    (∃ c, firstRaised checks = some c ∧ t = s.complete c) ∨ (firstRaised checks = none ∧ t = done.complete .ok) := by
  rcases runCommand_cases s checks done with ⟨c, h1, h2⟩ | ⟨h1, h2⟩ <;> rw [h2] at h <;> cases h
  · exact .inl ⟨c, h1, rfl⟩
  · exact .inr ⟨h1, rfl⟩

/-- The code a command reports: the first its checks raise, or OK. -/
theorem runCommand_code (s : State) (checks : List Check) (done : State) :
    ∃ t, runCommand s checks done = .next t ∧ t.status.code = (firstRaised checks).getD .ok := by
  rcases runCommand_cases s checks done with ⟨c, h1, h2⟩ | ⟨h1, h2⟩ <;> exact ⟨_, h2, by simp [h1]⟩

/-- A code that no check of the list carries is not raised. -/
theorem firstRaised_ne {checks : List Check} {c : Code} (h : ∀ x ∈ checks, x.2 ≠ c) : firstRaised checks ≠ some c :=
  fun hc => h _ (firstRaised_mem hc) rfl

/-- A command that reports OK raised no code and has made its writes, if none of its checks carries OK. -/
theorem runCommand_ok {s : State} {checks : List Check} {done t : State} (h : runCommand s checks done = .next t)
    (hc : ∀ x ∈ checks, x.2 ≠ .ok) (ht : t.status.code = .ok) : firstRaised checks = none ∧ t = done.complete .ok := by
  rcases runCommand_next h with ⟨c, h1, rfl⟩ | h2
  · exact absurd (by simpa using ht) (hc _ (firstRaised_mem h1))
  · exact h2

end Sys2Proof.Machine
end

