-- ==== Sys2Proof/Laws/Exec.lean ====
section
/-! SUPPORT. Each command as its checks and its writes, so that no later proof unfolds a chain of definitions, and what
code a command reports. -/

namespace Sys2Proof.Machine

theorem exec_nop (s : State) : exec .nop s = runCommand s [] s := rfl

theorem exec_cmIvRtp (s : State) : exec .cmIvRtp s =
    runCommand s (cmIvChecks Config.params s 12) { s with ivreg := cmIvRtp s.saltBytes s.rtpSsrc s.idx } := rfl

theorem exec_cmIvRtcp (s : State) : exec .cmIvRtcp s =
    runCommand s (cmIvChecks Config.params s 8) { s with ivreg := cmIvRtcp s.saltBytes s.rtcpSsrc s.index31 } := rfl

theorem exec_cmXor (dir : Dir) (cls : Cls) (s : State) : exec (.cmXor dir cls) s =
    runCommand s (cmXorChecks Config.params s)
      { s with
        pkt := s.pkt.store s.boff.toNat
          (cmXor Config.params ⟨.direct, cls, dir⟩ s.ekeyBytes s.ivreg (s.pkt.load s.boff.toNat s.blen.toNat)) } := rfl

theorem exec_kdfRtp (dir : Dir) (label : Byte) (dest : BitVec 3) (s : State) : exec (.kdfRtp dir label dest) s =
    kdfWith Config.params .rtp dir label dest s.idx.toNat .six s := rfl

theorem exec_kdfRtcp (dir : Dir) (label : Byte) (dest : BitVec 3) (s : State) : exec (.kdfRtcp dir label dest) s =
    kdfWith Config.params .rtcp dir label dest s.index31.toNat Config.params.kdfRtcpRWidth s := rfl

/-- A derivation to a reserved destination is an illegal word. -/
theorem kdfWith_none (P : Params) (cls : Cls) (dir : Dir) (label : Byte) (dest : BitVec 3) (index : Nat) (w : RWidth) (s : State)
    (h : destOf dest = none) : kdfWith P cls dir label dest index w s = .next (s.complete .illegalCommand) := by
  simp [kdfWith, h]

theorem kdfWith_some (P : Params) (cls : Cls) (dir : Dir) (label : Byte) (dest : BitVec 3) (index : Nat) (w : RWidth) (s : State)
    (d : Dest) (h : destOf dest = some d) : kdfWith P cls dir label dest index w s =
      runCommand s (kdfChecks P s d) (s.putDerived d (s.derived P cls dir label index w)) := by
  simp [kdfWith, h]

theorem destOf_eq_none_iff (dest : BitVec 3) : destOf dest = none ↔ 4 ≤ dest.toNat := by revert dest; decide

theorem exec_f8IvRtp (s : State) : exec .f8IvRtp s =
    runCommand s (f8IvChecks Config.params s 12) { s with ivreg := f8IvRtp s.rtpHeader s.roc } := rfl

theorem exec_f8IvRtcp (s : State) : exec .f8IvRtcp s =
    runCommand s (f8IvChecks Config.params s 8)
      { s with ivreg := f8IvRtcp Config.params s.idxE s.index31 s.rtcpHeader } := rfl

theorem exec_f8IvPrime (dir : Dir) (cls : Cls) (s : State) : exec (.f8IvPrime dir cls) s =
    runCommand s (f8KeyChecks s ++ [(!keyAccepted Config.params s.ekeyLen, .failed)])
      { s with ivpreg := s.ivPrime Config.params dir cls } := rfl

theorem exec_f8Xor (dir : Dir) (cls : Cls) (s : State) : exec (.f8Xor dir cls) s =
    runCommand s
      (f8KeyChecks s ++
        [(decide (Config.params.pktCap < s.boff.toNat + s.blen.toNat), .badParameter),
         (!keyAccepted Config.params s.ekeyLen, .failed)])
      { s with
        ivpreg := s.ivPrime Config.params dir cls
        pkt := s.pkt.store s.boff.toNat
          (f8Process Config.params ⟨.direct, cls, dir⟩ s.ekeyBytes (s.ivPrime Config.params dir cls)
            (s.pkt.load s.boff.toNat s.blen.toNat) dir) } := rfl

theorem exec_srtpProtect (s : State) : exec .srtpProtect s =
    runCommand s (srtpProtectChecks Config.params s)
      (s.srtpProtected Config.params (rtpHdrLenOr0 s.pkt s.packetLen)) := rfl

theorem exec_srtpUnprotect (s : State) : exec .srtpUnprotect s =
    runCommand s (srtpUnprotectChecks Config.params s)
      (s.srtpUnprotected Config.params (rtpHdrLenOr0 s.pkt (s.footerStart s.cfgRtp))) := rfl

theorem exec_srtpParse (s : State) : exec .srtpParse s =
    runCommand s (srtpParseChecks Config.params s) (s.srtpReport (rtpHdrLenOr0 s.pkt (s.footerStart s.cfgRtp))) := rfl

theorem exec_srtcpProtect (s : State) : exec .srtcpProtect s =
    runCommand s (srtcpProtectChecks Config.params s) (s.srtcpProtected Config.params) := rfl

theorem exec_srtcpUnprotect (s : State) : exec .srtcpUnprotect s =
    runCommand s (srtcpUnprotectChecks Config.params s) (s.srtcpUnprotected Config.params) := rfl

theorem exec_srtcpParse (s : State) : exec .srtcpParse s =
    runCommand s (srtcpParseChecks Config.params s) s.srtcpReport := rfl

/-- A completion with OK, for a command whose writes leave STATUS and CMD alone. -/
theorem completedWith_ok {s done : State} (hs : done.status = s.status) (hc : done.cmd = s.cmd) :
    CompletedWith .ok s (done.complete .ok) :=
  ⟨rfl, by simp [hs, hc, Word.op]⟩

/-- What a command reports, from its checks. -/
theorem reports_of_runCommand {i : Instr} {s done : State} {checks : List Check} {c : Code} (he : exec i s = runCommand s checks done)
    (hs : done.status = s.status) (hd : done.cmd = s.cmd) (hc : (firstRaised checks).getD .ok = c) : Reports i s c := by
  rcases runCommand_cases s checks done with ⟨c', h1, h2⟩ | ⟨h1, h2⟩
  · obtain rfl : c' = c := by simpa [h1] using hc
    exact ⟨_, he.trans h2, ⟨rfl, rfl⟩, fun _ => rfl⟩
  · obtain rfl : Code.ok = c := by simpa [h1] using hc
    exact ⟨_, he.trans h2, completedWith_ok hs hd, fun h => absurd rfl h⟩

end Sys2Proof.Machine
end

