-- ==== Sys2Proof/Laws/Framer.lean ====
section
/-! SUPPORT. The framer's check lists in the terms of Safety.lean, so that no later proof unfolds them, and the sizes they give. -/

namespace Sys2Proof.Machine

theorem Cfg.encrypts_iff (c : Cfg) : c.encrypts = true ↔ c.enc = 1 ∨ c.enc = 2 := by simp [Cfg.encrypts]

/-- FrCheckFull raises the code that `framerCode` names (R214). -/
theorem firstRaised_frCheckFull (c : Cfg) (s : State) : firstRaised (frCheckFull Config.params s c) = framerCode c s := by
  unfold frCheckFull State.packetLen
  simp only [firstRaised_cons, firstRaised_nil, framerCode, Bool.and_eq_true, Bool.or_eq_true, decide_eq_true_eq,
    Cfg.encrypts_iff, Bool.not_eq_true', keyAccepted]

/-- FrCheckParse raises the code that `parseCode` names (R214). -/
theorem firstRaised_frCheckParse (c : Cfg) (s : State) : firstRaised (frCheckParse Config.params s c) = parseCode c s := by
  unfold frCheckParse State.packetLen
  simp only [firstRaised_cons, firstRaised_nil, parseCode, Bool.and_eq_true, decide_eq_true_eq]

/-- No check of FrCheckFull applies exactly when the state is ready for the class (R214). -/
theorem framerCode_eq_none_iff (c : Cfg) (s : State) : framerCode c s = none ↔ FramerReady c s := by
  rw [← firstRaised_frCheckFull, firstRaised_eq_none]
  simp only [frCheckFull, List.forall_mem_cons, List.not_mem_nil, false_implies, implies_true, and_true, Bool.and_eq_false_imp,
    Bool.or_eq_false_iff, decide_eq_true_eq, decide_eq_false_iff_not, Cfg.encrypts_iff, Bool.not_eq_false', keyAccepted,
    State.packetLen, not_lt, not_not]
  constructor
  · rintro ⟨h1, h2, h3, h4, h5, h6, h7, h8, h9⟩
    exact ⟨h3.1, h3.2, h4, not_lt.mp (of_decide_eq_false h7), fun e => ⟨⟨(h1 e).1, (h5 e).1, h8 e⟩, (h1 e).2, (h5 e).2⟩, fun a => ⟨h2 a, h6 a, h9 a⟩⟩
  · rintro ⟨h1, h2, h3, h4, h5, h6⟩
    exact ⟨fun e => ⟨(h5 e).1.1, (h5 e).2.1⟩, fun a => (h6 a).1, ⟨h1, h2⟩, h3, fun e => ⟨(h5 e).1.2.1, (h5 e).2.2⟩,
      fun a => (h6 a).2.1, decide_eq_false (not_lt.mpr h4), fun e => (h5 e).1.2.2, fun a => (h6 a).2.2⟩

/-- A ready class has an MKI of at most 16 bytes. -/
theorem FramerReady.m_le {c : Cfg} {s : State} (h : FramerReady c s) : c.m ≤ 16 := by
  unfold Cfg.m
  split
  · exact h.2.2.1 ‹_›
  · omega

/-- In a packet that is long enough, the tag differs exactly when `TagMatches` fails (R221, R231). -/
theorem tagMismatch_eq (c : Cfg) (s : State) (msg : List Byte) (h : c.m + c.t ≤ s.pktLen.toNat) :
    tagMismatch Config.params s c msg = decide (¬ TagMatches c s msg) := by
  have he : s.footerStart c + c.m = s.pktLen.toNat - c.t := by simp only [State.footerStart, State.packetLen]; omega
  rw [tagMismatch, authTag, he]
  by_cases ha : c.auth = 0#4 <;> simp [ha, TagMatches, State.akeyBytes]

end Sys2Proof.Machine
end

