-- ==== Sys2Proof/Laws/Operands.lean ====
section
/-! SUPPORT. The operands of R102 and R212 as numbers, and the result registers in the terms of Safety.lean. -/

namespace Sys2Proof.Machine

/-- IDX = IDX_HI · 2^32 + IDX_LO (R40). -/
theorem State.idx_toNat (s : State) : s.idx.toNat = s.idxHi.toNat * 2 ^ 32 + s.idxLo.toNat := by
  have h : s.idxLo.toNat < 2 ^ 32 := s.idxLo.isLt
  rw [State.idx, BitVec.toNat_append, Nat.shiftLeft_eq, Nat.mul_comm, ← Nat.two_pow_add_eq_or_of_lt h]

/-- The RTCP index is IDX_LO modulo 2^31 (R102). -/
theorem State.index31_toNat (s : State) : s.index31.toNat = s.idxLo.toNat % 2 ^ 31 := by
  simp [State.index31, BitVec.extractLsb'_toNat]

/-- The packet index is roc · 2^16 + seq (R212). -/
theorem State.rtpIndex_toNat (s : State) : s.rtpIndex.toNat = s.roc.toNat * 2 ^ 16 + beRead (s.pkt.load 2 2) := by
  have h : beRead (s.pkt.load 2 2) < 2 ^ 16 := by simpa using beRead_lt (s.pkt.load 2 2)
  simp only [State.rtpIndex, State.rtpSeq, BitVec.toNat_append, BitVec.toNat_ofNat, Nat.mod_eq_of_lt h]
  rw [Nat.shiftLeft_eq, Nat.mul_comm, ← Nat.two_pow_add_eq_or_of_lt h]

/-- A 48-bit value from its two register halves. -/
theorem toNat_halves (x : BitVec 48) : (x.extractLsb' 32 16).toNat * 2 ^ 32 + (x.extractLsb' 0 32).toNat = x.toNat := by
  have := x.isLt
  simp [BitVec.extractLsb'_toNat, Nat.shiftRight_eq_div_pow]
  omega

/-- What SRTP commands put into the result registers (R50, R51), when every value fits its 16 bits. -/
theorem srtpResults_are (s : State) (c : Cfg) (hdr pay mkiOff tagOff : Nat) (h1 : hdr < 65536) (h2 : pay < 65536)
    (h3 : mkiOff < 65536) (h4 : tagOff < 65536) :
    SrtpResultsAre (srtpResults c hdr pay mkiOff tagOff s.rtpIndex) c hdr pay mkiOff tagOff s.roc (beRead (s.pkt.load 2 2)) := by
  have hx := toNat_halves s.rtpIndex
  rw [State.rtpIndex_toNat] at hx
  exact ⟨Nat.mod_eq_of_lt h1, Nat.mod_eq_of_lt h2, Nat.mod_eq_of_lt h3, Nat.mod_eq_of_lt h4, hx, rfl⟩

/-- What SRTCP commands put into the result registers (R50, R51), when every value fits its 16 bits. -/
theorem srtcpResults_are (c : Cfg) (pay mkiOff tagOff : Nat) (w : Word) (h2 : pay < 65536) (h3 : mkiOff < 65536)
    (h4 : tagOff < 65536) : SrtcpResultsAre (srtcpResults c pay mkiOff tagOff w) c pay mkiOff tagOff w :=
  ⟨rfl, Nat.mod_eq_of_lt h2, Nat.mod_eq_of_lt h3, Nat.mod_eq_of_lt h4, rfl, rfl, rfl⟩

end Sys2Proof.Machine
end

