-- ==== Sys2Proof/Laws/PerInstr.lean ====
section
/-! SUPPORT. Statements about every command as syntax, one lemma a constructor. -/

namespace Sys2Proof.Laws.TableRow

/-- A well-formed command's word selects the command's own row of the opcode table (R106). -/
def Statement (i : Instr) : Prop :=
  i.wf = true →
    (i.opcode.setWidth 32, i.mask) ∈ Machine.commandTable ∧ encode i &&& i.mask = i.opcode.setWidth 32

theorem nop : Statement .nop := by unfold Statement; decide
theorem cmIvRtp : Statement .cmIvRtp := by unfold Statement; decide
theorem cmIvRtcp : Statement .cmIvRtcp := by unfold Statement; decide

theorem cmXor (dir : Dir) (cls : Cls) : Statement (.cmXor dir cls) := by
  unfold Statement; cases dir <;> cases cls <;> decide

/-- The free bits of a KDF's row are DIR, LABEL and DEST[1:0]. -/
theorem packed_kdf (op label : Byte) (dir : BitVec 1) (dest : BitVec 3) (h : dest.toNat < 4) :
    packCommand dest label 0 dir op &&& 0xFC00FEFF = op.setWidth 32 := by
  have hd : dest.getLsbD 2 = false := by revert dest; decide
  apply BitVec.eq_of_getLsbD_eq
  intro i hi
  simp only [packCommand, BitVec.getLsbD_and, BitVec.getLsbD_append]
  interval_cases i <;> simp_all

theorem kdfRtp (dir : Dir) (label : Byte) (dest : BitVec 3) : Statement (.kdfRtp dir label dest) := fun h =>
  ⟨by simp [Machine.commandTable, Instr.opcode, Instr.mask], packed_kdf _ _ _ _ (by simpa [Instr.wf] using h)⟩

theorem kdfRtcp (dir : Dir) (label : Byte) (dest : BitVec 3) : Statement (.kdfRtcp dir label dest) := fun h =>
  ⟨by simp [Machine.commandTable, Instr.opcode, Instr.mask], packed_kdf _ _ _ _ (by simpa [Instr.wf] using h)⟩

theorem f8IvRtp : Statement .f8IvRtp := by unfold Statement; decide
theorem f8IvRtcp : Statement .f8IvRtcp := by unfold Statement; decide

theorem f8IvPrime (dir : Dir) (cls : Cls) : Statement (.f8IvPrime dir cls) := by
  unfold Statement; cases dir <;> cases cls <;> decide

theorem f8Xor (dir : Dir) (cls : Cls) : Statement (.f8Xor dir cls) := by
  unfold Statement; cases dir <;> cases cls <;> decide

theorem srtpProtect : Statement .srtpProtect := by unfold Statement; decide
theorem srtpUnprotect : Statement .srtpUnprotect := by unfold Statement; decide
theorem srtpParse : Statement .srtpParse := by unfold Statement; decide
theorem srtcpProtect : Statement .srtcpProtect := by unfold Statement; decide
theorem srtcpUnprotect : Statement .srtcpUnprotect := by unfold Statement; decide
theorem srtcpParse : Statement .srtcpParse := by unfold Statement; decide

end Sys2Proof.Laws.TableRow
end

