-- ==== Sys2Proof/Machine/HostProgram.lean ====
section
/-! DEFINITION. The spec's notation for host programs (R110-R113), as the events it stands for. No step depends on it. -/

namespace Sys2Proof.Machine

/-- One line of a host program (R110-R113). `off` and `base` are byte offsets of the map. `expect` is no bus operation (R113),
so it has no line here. -/
inductive HostOp where
  /-- `wr REG, v` (R110). -/
  | wr (off : Nat) (v : Word)
  /-- `rd REG` (R110). -/
  | rd (off : Nat)
  /-- `cmd MNEMONIC ...` (R111). -/
  | cmd (i : Instr)
  /-- `load W, <hex bytes>` (R112), `base` being W's offset. -/
  | load (base : Nat) (bs : List Byte)
  /-- `wait` (R113), when the engine's turn comes after `polls` polls that found BUSY = 1 (R87: the point is free). -/
  | wait (polls : Nat)
  /-- `ack` (R113). -/
  | ack
  deriving DecidableEq, Repr

/-- The writes of `load` (R112): four bytes a word, the missing bytes of the last word 0. -/
def loadWrites (base : Nat) : List Byte → List Event
  | [] => []
  | [a] => [.hostWrite base (busWord [a, 0, 0, 0])]
  | [a, b] => [.hostWrite base (busWord [a, b, 0, 0])]
  | [a, b, c] => [.hostWrite base (busWord [a, b, c, 0])]
  | a :: b :: c :: d :: rest => .hostWrite base (busWord [a, b, c, d]) :: loadWrites (base + 4) rest

/-- What one line expands to (R110-R113). -/
def HostOp.events : HostOp → List Event
  | .wr off v => [.hostWrite off v]
  | .rd off => [.hostRead off]
  | .cmd i => [.hostWrite 0x010 (encode i)]
  | .load base bs => loadWrites base bs
  | .wait polls => List.replicate polls (.hostRead 0x00C) ++ [.engineTurn, .hostRead 0x00C]
  | .ack => [.hostWrite 0x00C 0x00000006]

/-- A host program as the events it issues, in the host's program order (R89). -/
def hostProgram (lines : List HostOp) : List Event := lines.flatMap HostOp.events

end Sys2Proof.Machine
end

