-- ==== Sys2Proof/Tests/Slice0.lean ====
section
/-! SUPPORT. The model's own tests: well-formedness, words written out from the spec's encoding, the spec's worked examples,
one step of each command, and for each obligation with hypotheses a concrete state that meets them. -/

namespace Sys2Proof.Tests

open Sys2Proof.Machine

/-! ### Well-formedness: the one check, on both commands that have it (R104 (d)) -/

theorem test_wf_refuses_kdfRtp_dest4 : Instr.wf (.kdfRtp .encrypt 0x00 4) = false := by decide
theorem test_wf_refuses_kdfRtcp_dest7 : Instr.wf (.kdfRtcp .decrypt 0x03 7) = false := by decide
theorem test_wf_allows_dest3 : Instr.wf (.kdfRtp .decrypt 0xFF 3) = true ∧ Instr.wf (.kdfRtcp .encrypt 0x00 0) = true := by decide

/-! ### Decoding: words written out from R101 and R103 -/

theorem test_decode_control : decode 0x00000000 = .ok .nop := by decide

theorem test_decode_cm : decode 0x00000001 = .ok .cmIvRtp ∧ decode 0x00000002 = .ok .cmIvRtcp ∧
    decode 0x00000003 = .ok (.cmXor .encrypt .rtp) ∧ decode 0x00000103 = .ok (.cmXor .decrypt .rtp) ∧
    decode 0x00000203 = .ok (.cmXor .encrypt .rtcp) ∧ decode 0x00000303 = .ok (.cmXor .decrypt .rtcp) := by decide

/-- R111's example, V-KDF3's words and R165's DIR. -/
theorem test_decode_kdf : decode 0x02020004 = .ok (.kdfRtp .encrypt 0x02 2) ∧ decode 0x03FF0104 = .ok (.kdfRtp .decrypt 0xFF 3) ∧
    decode 0x00030005 = .ok (.kdfRtcp .encrypt 0x03 0) ∧ decode 0x01040005 = .ok (.kdfRtcp .encrypt 0x04 1) := by decide

theorem test_decode_f8 : decode 0x00000008 = .ok .f8IvRtp ∧ decode 0x00000009 = .ok .f8IvRtcp ∧
    decode 0x0000020A = .ok (.f8IvPrime .encrypt .rtcp) ∧ decode 0x0000010B = .ok (.f8Xor .decrypt .rtp) := by decide

theorem test_decode_srtp : decode 0x00000010 = .ok .srtpProtect ∧ decode 0x00000011 = .ok .srtpUnprotect ∧
    decode 0x00000012 = .ok .srtpParse := by decide

theorem test_decode_srtcp : decode 0x00000014 = .ok .srtcpProtect ∧ decode 0x00000015 = .ok .srtcpUnprotect ∧
    decode 0x00000016 = .ok .srtcpParse := by decide

/-- V-CM14, V-KDF11, V-F8-12 and R104's own cases. -/
theorem test_decode_illegal : decode 0x00010003 = .error .unusedField ∧ decode 0x00000101 = .error .unusedField ∧
    decode 0x04000004 = .error .reservedDest ∧ decode 0x00000204 = .error .unusedField ∧ decode 0x0001000B = .error .unusedField ∧
    decode 0x00000013 = .error .unassignedOp ∧ decode 0x000000FF = .error .unassignedOp ∧
    decode 0x00000400 = .error .reservedBits ∧ decode 0x80000000 = .error .reservedBits ∧
    decode 0x01000000 = .error .unusedField := by decide

theorem test_encode : encode (.kdfRtp .encrypt 0x02 2) = 0x02020004 ∧ encode (.cmXor .decrypt .rtcp) = 0x00000303 ∧
    encode .srtcpParse = 0x00000016 := by decide

theorem test_decodeTableWord : decodeTableWord 32 0x00000303 = some (.cmXor .decrypt .rtcp) ∧ decodeTableWord 32 0x13 = none := by
  decide

/-! ### Functions: the spec's worked examples -/

/-- V-CM1, V-CM2. -/
theorem test_saltAlign14 : saltAlign14 [1, 2, 3, 4] = [0, 0, 0, 0, 0, 0, 0, 0, 0, 0, 1, 2, 3, 4] ∧
    saltAlign14 [0, 1, 2, 3, 4, 5, 6, 7, 8, 9, 10, 11, 12, 13, 14, 15] = [2, 3, 4, 5, 6, 7, 8, 9, 10, 11, 12, 13, 14, 15] := by
  decide

/-- The salt of R140's example. -/
def saltF : List Byte := [0xf0, 0xf1, 0xf2, 0xf3, 0xf4, 0xf5, 0xf6, 0xf7, 0xf8, 0xf9, 0xfa, 0xfb, 0xfc, 0xfd]

/-- V-CM3. -/
theorem test_cmIvRtp : (cmIvRtp saltF 0x11223344 0xaabbccddeeff).toList =
    [0xf0, 0xf1, 0xf2, 0xf3, 0xe5, 0xd7, 0xc5, 0xb3, 0x52, 0x42, 0x36, 0x26, 0x12, 0x02, 0x00, 0x00] := by decide

/-- V-CM6 and the example of R132. -/
theorem test_cmIvRtcp : (cmIvRtcp (zeros 14) 0 0x7fffffff).toList = [0, 0, 0, 0, 0, 0, 0, 0, 0, 0, 0x7f, 0xff, 0xff, 0xff, 0, 0] ∧
    (cmIvRtcp saltF 0xcafebabe 1).toList =
      [0xf0, 0xf1, 0xf2, 0xf3, 0x3e, 0x0b, 0x4c, 0x49, 0xf8, 0xf9, 0xfa, 0xfb, 0xfc, 0xfc, 0x00, 0x00] := by decide

/-- The examples of R160. -/
theorem test_kdfR : kdfR 0x123456 0x10000 = 0x12 ∧ kdfR 0x12ffff 0x10000 = 0x12 ∧ kdfR 0x130000 0x10000 = 0x13 ∧
    kdfR 0x123456 0 = 0 ∧ kdfR 0x123456 1 = 0x123456 := by decide

/-- The master salt of G3 (RFC 3711 B.3). -/
def saltG3 : List Byte := [0x0e, 0xc6, 0x75, 0xad, 0x49, 0x8a, 0xfe, 0xeb, 0xb6, 0x96, 0x0b, 0x3a, 0xab, 0xe6]

/-- V-KDF1 (label 2) and V-KDF6. -/
theorem test_kdfIv : (kdfIv 0x02 0 .six saltG3).toList =
      [0x0e, 0xc6, 0x75, 0xad, 0x49, 0x8a, 0xfe, 0xe9, 0xb6, 0x96, 0x0b, 0x3a, 0xab, 0xe6, 0x00, 0x00] ∧
    (kdfIv 0x03 0x12345678 .four saltG3).toList =
      [0x0e, 0xc6, 0x75, 0xad, 0x49, 0x8a, 0xfe, 0xeb, 0xb6, 0x95, 0x19, 0x0e, 0xfd, 0x9e, 0x00, 0x00] := by decide

/-- The example of R180. -/
theorem test_f8IvRtp : (f8IvRtp [0x80, 0x6e, 0x5c, 0xba, 0x50, 0x68, 0x1d, 0xe5, 0x5c, 0x62, 0x15, 0x99] 0xd462564a).toList =
    [0x00, 0x6e, 0x5c, 0xba, 0x50, 0x68, 0x1d, 0xe5, 0x5c, 0x62, 0x15, 0x99, 0xd4, 0x62, 0x56, 0x4a] := by decide

/-- V-F8-4 and the example of R184. -/
theorem test_f8Mask : f8Mask [0x32, 0xf2, 0x87, 0x0d] 6 = [0x32, 0xf2, 0x87, 0x0d, 0x55, 0x55] ∧
    f8Mask [0, 1, 2, 3] 2 = [0, 1] ∧ f8MaskedKey [0x23, 0x48, 0x29, 0x00, 0x84] [0x32, 0xf2, 0x87, 0x0d] = [0x11, 0xba, 0xae, 0x0d, 0xd1] := by
  decide

/-- R186: j is big-endian in bytes 14-15; R133: the counter field is replaced. -/
theorem test_counters : (f8J 0x0102).toList = zeros 14 ++ [1, 2] ∧
    (ctrBlock (fit 16 (List.replicate 16 0xff)) 0x0102).toList = List.replicate 14 0xff ++ [1, 2] := by decide

/-- PURPOSE takes 12 values (R91): the first and the last. -/
theorem test_purpose : Purpose.value ⟨.direct, .rtp, .encrypt⟩ = 0 ∧ Purpose.value ⟨.keyDerivation, .rtcp, .decrypt⟩ = 11 := by
  decide

/-- A packet at PKT[0], and nothing else but zeros in PKT. -/
def packetAt (bs : List Byte) : Memory := Memory.store [] 0 bs

/-- The examples of R211. -/
theorem test_rtpHdrLen : rtpHdrLen (packetAt [0x80]) 12 = some 12 ∧ rtpHdrLen (packetAt [0x80]) 11 = none ∧
    rtpHdrLen (Memory.store (packetAt [0x92]) 20 [0, 0, 0, 1]) 28 = some 28 ∧
    rtpHdrLen (Memory.store (packetAt [0x92]) 20 [0, 0, 0, 1]) 27 = none ∧ rtpHdrLen (packetAt [0x8f]) 12 = none := by decide

/-- The STATUS words of V-KDF2, V-F8-12 and P4 (LASTOP, CODE, DONE), and all three low bits. -/
theorem test_status_word : Status.word ⟨false, true, false, .ok, 0x04⟩ = 0x00040002 ∧
    Status.word ⟨false, true, false, .illegalCommand, 0x0B⟩ = 0x000B0902 ∧
    Status.word ⟨false, true, false, .nullArgument, 0x03⟩ = 0x00030102 ∧
    Status.word ⟨true, false, true, .ok, 0⟩ = 0x00000005 := by decide

/-- The configuration of R222's example: ENC = 1, MKI_EN = 1, AUTH = 1, TAG_LEN = 10, MKI_LEN = 4. Bit 2 is dropped. -/
theorem test_cfg_word : Cfg.ofWord 0x00040A19 = ⟨1, true, 1, 10, 4, 0⟩ ∧ (Cfg.ofWord 0x00040A19).word = 0x00040A19 ∧
    (Cfg.ofWord 0xFFFFFFFF).word = 0xFFFFFFFB ∧ (Cfg.ofWord 0x00040A19).footer .rtcp = 18 := by decide

/-- The examples of R112, R111 and R113. -/
theorem test_hostProgram : hostProgram [.load 0x160 [0xf0, 0xf1, 0xf2, 0xf3, 0xf4], .cmd (.kdfRtp .encrypt 0x02 2), .ack] =
    [.hostWrite 0x160 0xf0f1f2f3, .hostWrite 0x164 0xf4000000, .hostWrite 0x010 0x02020004, .hostWrite 0x00C 0x00000006] := by
  decide

/-! ### Memory -/

theorem test_memory_reset : Memory.wf State.reset.pkt = true := by decide

/-- Writing the unlisted value takes the entry out; entries rise. -/
theorem test_memory_canonical : Memory.write (Memory.write (Memory.write [] 9 1) 4 2) 9 0 = [(4, 2)] ∧
    Memory.write (Memory.write [] 9 1) 4 2 = [(4, 2), (9, 1)] ∧ Memory.wf [(9, 1), (4, 2)] = false ∧ Memory.wf [(4, 0)] = false := by
  decide

/-! ### One step of each command, with ports simple enough to compute by hand: E adds (XOR) the key's first byte to every byte
of the block, and every byte of a tag is the length of the message. The expected bytes are worked out from the rules. -/

def toy : Params where
  pktCap := 64
  cipher := fun key b => fit 16 (b.toList.map fun x => x ^^^ key.headD 0)
  keyBitsOk := fun bits => bits == 128
  mac := fun _ _ msg t => Vector.replicate t (BitVec.ofNat 8 msg.length)
  macOk := fun alg _ t => alg == 1 && decide (t ≤ 20)
  f8Feedback := .keystream
  f8RtcpLayout := .doc
  kdfRtcpRWidth := .four

/-- The next state of an outcome, for tests. -/
def nextOf (o : Host.Outcome State Fault Refusal) : State :=
  match o with
  | .next s => s
  | .fault _ => State.reset
  | .refused _ => State.reset

/-- R260's example: `cmd NOP` from the reset state gives STATUS = 0x00000002. -/
theorem test_nop : (nextOf (exec .nop State.reset)).status.word = 0x00000002 := by decide

/-- R140's example (V-CM4). -/
theorem test_cmIvRtp_step : (nextOf (cmIvRtpWith toy { State.reset with
      salt := fit 16 saltF, saltLen := 14, idxLo := 0x1234, pktLen := 12
      pkt := packetAt [0x80, 0x0f, 0x12, 0x34, 0xde, 0xca, 0xfb, 0xad, 0xca, 0xfe, 0xba, 0xbe] })).ivreg.toList =
    [0xf0, 0xf1, 0xf2, 0xf3, 0x3e, 0x0b, 0x4c, 0x49, 0xf8, 0xf9, 0xfa, 0xfb, 0xee, 0xc9, 0x00, 0x00] := by decide

/-- V-CM13: no salt; and a header image of 11 bytes. -/
theorem test_cmIvRtp_codes : (nextOf (exec .cmIvRtp State.reset)).status.code = .nullArgument ∧
    (nextOf (cmIvRtpWith toy { State.reset with saltLen := 14, pktLen := 11 })).status.code = .badParameter := by decide

/-- R141's example (V-CM5): IDX[31] is ignored. -/
theorem test_cmIvRtcp_step : (nextOf (cmIvRtcpWith toy { State.reset with
      salt := fit 16 saltF, saltLen := 14, idxLo := 0x80000001, pktLen := 8
      pkt := packetAt [0x81, 0xc8, 0x00, 0x0d, 0xca, 0xfe, 0xba, 0xbe] })).ivreg.toList =
    [0xf0, 0xf1, 0xf2, 0xf3, 0x3e, 0x0b, 0x4c, 0x49, 0xf8, 0xf9, 0xfa, 0xfb, 0xfc, 0xfc, 0x00, 0x00] := by decide

/-- R142: zeros become the keystream, iv XOR A0 with the block number in the last two bytes; one byte of a second block. -/
theorem test_cmXor_step : (nextOf (cmXorWith toy .encrypt .rtp { State.reset with
      ekey := fit 32 [0xA0], ekeyLen := 16, ivreg := fit 16 (saltF ++ [0xff, 0xff]), boff := 4, blen := 17 })).pkt.load 3 19 =
    [0x00, 0x50, 0x51, 0x52, 0x53, 0x54, 0x55, 0x56, 0x57, 0x58, 0x59, 0x5a, 0x5b, 0x5c, 0x5d, 0xa0, 0xa0, 0x50, 0x00] := by decide

/-- V-CM11 and V-CM12. -/
theorem test_cmXor_codes :
    (nextOf (cmXorWith toy .encrypt .rtp { State.reset with ekeyLen := 16, boff := 0xffff })).status.code = .badParameter ∧
    (nextOf (cmXorWith toy .encrypt .rtp { State.reset with ekeyLen := 33 })).status.code = .badParameter ∧
    (nextOf (cmXorWith toy .encrypt .rtp { State.reset with ekeyLen := 10 })).status.code = .failed := by decide

/-- A session base: master key and salt loaded. -/
def master : State :=
  { State.reset with mkey := fit 32 [0xe1], mkeyLen := 16, msalt := fit 16 saltG3, msaltLen := 14, blen := 14 }

/-- R165: SALT takes the derivation IV of V-KDF1 (label 2) XOR e1, and SALT_LEN the length. -/
theorem test_kdfRtp_step : (nextOf (kdfRtpWith toy .encrypt 0x02 2 master)).salt.toList =
      [0xef, 0x27, 0x94, 0x4c, 0xa8, 0x6b, 0x1f, 0x08, 0x57, 0x77, 0xea, 0xdb, 0x4a, 0x07, 0x00, 0x00] ∧
    (nextOf (kdfRtpWith toy .encrypt 0x02 2 master)).saltLen = 14 := by decide

/-- V-KDF7, V-KDF8 and V-KDF11: KDR = 2^24 + 1; BLEN = 17 for SALT; DEST = 4. -/
theorem test_kdfRtp_codes :
    (nextOf (kdfRtpWith toy .encrypt 0 2 { master with kdr := 0x1000001 })).status.code = .badParameter ∧
    (nextOf (kdfRtpWith toy .encrypt 0 2 { master with kdr := 0x1000000 })).status.code = .ok ∧
    (nextOf (kdfRtpWith toy .encrypt 0 2 { master with blen := 17 })).status.code = .badParameter ∧
    (nextOf (kdfRtpWith toy .encrypt 0 4 master)).status.code = .illegalCommand := by decide

/-- R166 with a 4-byte r: the label 3 lands on byte 9 (V-KDF3: 95, XOR e1). -/
theorem test_kdfRtcp_step : (nextOf (kdfRtcpWith toy .encrypt 0x03 0 { master with idxLo := 1 })).ekey.toList.take 14 =
      [0xef, 0x27, 0x94, 0x4c, 0xa8, 0x6b, 0x1f, 0x0a, 0x57, 0x74, 0xea, 0xdb, 0x4a, 0x07] ∧
    (nextOf (kdfRtcpWith toy .encrypt 0x03 0 { master with idxLo := 1 })).ekeyLen = 14 := by decide

/-- R166 with a 6-byte r: the label lands on byte 7 (V-KDF4: e8, XOR e1). -/
theorem test_kdfRtcp_six : (nextOf (kdfRtcpWith { toy with kdfRtcpRWidth := .six } .encrypt 0x03 0 master)).ekey.toList.take 10 =
    [0xef, 0x27, 0x94, 0x4c, 0xa8, 0x6b, 0x1f, 0x09, 0x57, 0x77] := by decide

/-- R190's example (V-F8-1). -/
theorem test_f8IvRtp_step : (nextOf (f8IvRtpWith toy { State.reset with
      idxHi := 0xd462, idxLo := 0x564a5cba, pktLen := 51
      pkt := packetAt [0x80, 0x6e, 0x5c, 0xba, 0x50, 0x68, 0x1d, 0xe5, 0x5c, 0x62, 0x15, 0x99] })).ivreg.toList =
    [0x00, 0x6e, 0x5c, 0xba, 0x50, 0x68, 0x1d, 0xe5, 0x5c, 0x62, 0x15, 0x99, 0xd4, 0x62, 0x56, 0x4a] := by decide

/-- R191's example (V-F8-3), with both layouts. -/
theorem test_f8IvRtcp_step : (nextOf (f8IvRtcpWith toy { State.reset with
      idxLo := 0x80000001, pktLen := 8, pkt := packetAt [0x81, 0xc8, 0x00, 0x0d, 0xca, 0xfe, 0xba, 0xbe] })).ivreg.toList =
      [0x80, 0x00, 0x00, 0x01, 0x81, 0xc8, 0x00, 0x0d, 0xca, 0xfe, 0xba, 0xbe, 0, 0, 0, 0] ∧
    (nextOf (f8IvRtcpWith { toy with f8RtcpLayout := .rfc3711 } { State.reset with
      idxLo := 0x80000001, pktLen := 8, pkt := packetAt [0x81, 0xc8, 0x00, 0x0d, 0xca, 0xfe, 0xba, 0xbe] })).ivreg.toList =
      [0, 0, 0, 0, 0x80, 0x00, 0x00, 0x01, 0x81, 0xc8, 0x00, 0x0d, 0xca, 0xfe, 0xba, 0xbe] := by decide

/-- EKEY[0] = 23 and SALT[0] = 32, as in R192's example; BLEN = 32, the two blocks PKT[0..32) with 55 in front. -/
def f8State : State :=
  { State.reset with
    ekey := fit 32 [0x23], ekeyLen := 16, salt := fit 16 [0x32], saltLen := 4, ivreg := fit 16 [0x00, 0x6e], blen := 32
    pkt := packetAt [0x55] }

/-- R192: IV′ is IVREG XOR 11, the masked key's first byte. -/
theorem test_f8IvPrime_step : (nextOf (f8IvPrimeWith toy .encrypt .rtp f8State)).ivpreg.toList = [0x11, 0x7f] ++ List.replicate 14 0x11 := by
  decide

/-- R193, KEYSTREAM: S(0) = IV′ XOR 23, and S(1) = F8J(1): both other terms cancel. -/
theorem test_f8Xor_keystream : (nextOf (f8XorWith toy .encrypt .rtp f8State)).pkt.load 0 32 =
    [0x67, 0x5c] ++ List.replicate 14 0x32 ++ zeros 15 ++ [0x01] := by decide

/-- R187, CIPHERTEXT: encrypting chains the output block (67 5c 32 ...), so S(1) starts with 55; decrypting chains the input
block (55 00 00 ...), so S(1) = 67 5c 32 ... with the block number 1. -/
theorem test_f8Xor_ciphertext :
    (nextOf (f8XorWith { toy with f8Feedback := .ciphertext } .encrypt .rtp f8State)).pkt.load 16 16 = [0x55] ++ zeros 14 ++ [0x01] ∧
    (nextOf (f8XorWith { toy with f8Feedback := .ciphertext } .decrypt .rtp f8State)).pkt.load 16 16 =
      [0x67, 0x5c] ++ List.replicate 13 0x32 ++ [0x33] := by decide

/-- A 13-byte RTP packet, SEQ 1234, one payload byte ab; a one-byte MKI and a two-byte tag, no cipher. -/
def rtpState : State :=
  { State.reset with
    cfgRtp := ⟨0, true, 1, 2, 1, 0⟩, akeyLen := 20, mki := fit 16 [0x77], idxHi := 0x0001, idxLo := 0x0002ffff, pktLen := 13
    pkt := packetAt [0x80, 0x0f, 0x12, 0x34, 0xde, 0xca, 0xfb, 0xad, 0xca, 0xfe, 0xba, 0xbe, 0xab] }

/-- R220: MKI, then the tag: the message is 13 bytes and the ROC's 4, so 11 11. -/
theorem test_srtpProtect_step : (nextOf (srtpProtectWith toy rtpState)).pkt.load 12 5 = [0xab, 0x77, 0x11, 0x11, 0x00] ∧
    (nextOf (srtpProtectWith toy rtpState)).pktLen = 16 ∧
    (nextOf (srtpProtectWith toy rtpState)).res = ⟨12, 1, 13, 14, 0x00021234, 0x0001, ⟨false, true, true⟩⟩ := by decide

/-- R220, R214: no footer space; no authentication key. -/
theorem test_srtpProtect_codes :
    (nextOf (srtpProtectWith toy { rtpState with pktLen := 62 })).status.code = .insufficientBufferSpace ∧
    (nextOf (srtpProtectWith toy { rtpState with akeyLen := 0 })).status.code = .nullArgument := by decide

/-- R221: the protected packet again in clear, its footer left in PKT beyond the new PKT_LEN. -/
theorem test_srtpUnprotect_step :
    (nextOf (srtpUnprotectWith toy (nextOf (srtpProtectWith toy rtpState)))).pktLen = 13 ∧
    (nextOf (srtpUnprotectWith toy (nextOf (srtpProtectWith toy rtpState)))).pkt.load 12 5 = [0xab, 0x77, 0x11, 0x11, 0x00] ∧
    (nextOf (srtpUnprotectWith toy (nextOf (srtpProtectWith toy rtpState)))).rxMki.toList = [0x77] ++ zeros 15 := by decide

/-- R221: the tag check comes before the header parse; a wrong tag changes nothing but STATUS. -/
theorem test_srtpUnprotect_authFailure :
    srtpUnprotectWith toy { rtpState with pktLen := 16 } = .next (State.complete { rtpState with pktLen := 16 } .authFailure) := by
  rfl

/-- R222: what the parser finds in the protected packet. -/
theorem test_srtpParse_step :
    (nextOf (srtpParseWith toy (nextOf (srtpProtectWith toy rtpState)))).res = ⟨12, 1, 13, 14, 0x00021234, 0x0001, ⟨false, true, true⟩⟩ ∧
    (nextOf (srtpParseWith toy (nextOf (srtpProtectWith toy rtpState)))).rxMki.toList = [0x77] ++ zeros 15 ∧
    (nextOf (srtpParseWith toy { rtpState with pktLen := 14 })).status.code = .badParameter := by decide

/-- A 9-byte RTCP packet with one payload byte ab, index 5 with IDX[31] set; a one-byte MKI and a two-byte tag, AES-CM. -/
def rtcpState : State :=
  { State.reset with
    cfgRtcp := ⟨1, true, 1, 2, 1, 0⟩, akeyLen := 20, mki := fit 16 [0x77], idxLo := 0x80000005, pktLen := 9
    ekey := fit 32 [0xA0], ekeyLen := 16, salt := fit 16 [0x32], saltLen := 14
    pkt := packetAt [0x81, 0xc8, 0x00, 0x0d, 0xca, 0xfe, 0xba, 0xbe, 0xab] }

/-- R230: payload ab XOR (salt byte 32 XOR A0) = 39, the trailer word with E = 1, MKI, and the tag over 13 bytes. -/
theorem test_srtcpProtect_step : (nextOf (srtcpProtectWith toy rtcpState)).pkt.load 7 9 =
      [0xbe, 0x39, 0x80, 0x00, 0x00, 0x05, 0x77, 0x0d, 0x0d] ∧
    (nextOf (srtcpProtectWith toy rtcpState)).pktLen = 16 ∧
    (nextOf (srtcpProtectWith toy rtcpState)).res = ⟨8, 1, 13, 14, 0x80000005, 0, ⟨true, true, true⟩⟩ := by decide

/-- R230: 4 + m + t bytes do not fit; a packet of 7 bytes. -/
theorem test_srtcpProtect_codes :
    (nextOf (srtcpProtectWith toy { rtcpState with pktLen := 58 })).status.code = .insufficientBufferSpace ∧
    (nextOf (srtcpProtectWith toy { rtcpState with pktLen := 7 })).status.code = .badParameter := by decide

/-- R231: the payload in clear again, PKT_LEN without the trailer, and the index reported. -/
theorem test_srtcpUnprotect_step :
    (nextOf (srtcpUnprotectWith toy (nextOf (srtcpProtectWith toy rtcpState)))).pkt.load 7 3 = [0xbe, 0xab, 0x80] ∧
    (nextOf (srtcpUnprotectWith toy (nextOf (srtcpProtectWith toy rtcpState)))).pktLen = 9 ∧
    (nextOf (srtcpUnprotectWith toy (nextOf (srtcpProtectWith toy rtcpState)))).res.idxLo = 0x80000005 := by decide

/-- R231: E = 1 without a cipher, after a tag that matches (the tag covers 13 bytes). -/
theorem test_srtcpUnprotect_codes :
    (nextOf (srtcpUnprotectWith toy { nextOf (srtcpProtectWith toy rtcpState) with cfgRtcp := ⟨0, true, 1, 2, 1, 0⟩ })).status.code =
      .badParameter ∧
    (nextOf (srtcpUnprotectWith toy { nextOf (srtcpProtectWith toy rtcpState) with mki := fit 16 [], pktLen := 15 })).status.code =
      .authFailure := by decide

/-- R232: the same results from the parser, without keys. -/
theorem test_srtcpParse_step :
    (nextOf (srtcpParseWith toy { nextOf (srtcpProtectWith toy rtcpState) with ekeyLen := 0, akeyLen := 0 })).res =
      ⟨8, 1, 13, 14, 0x80000005, 0, ⟨true, true, true⟩⟩ := by decide

/-! ### Bus, reset and one step of the machine -/

/-- R82: bytes 800f1234 read back as the word 0x800f1234. -/
theorem test_packet_word : (nextOf (hostReadWith toy 0x1000 rtpState)).readData = 0x800f1234 := by decide

/-- R82: MSALT+4 takes a word's bytes, the most significant first. -/
theorem test_window_write : (nextOf (hostWriteWith toy 0x124 0x01020304 State.reset)).msalt.toList = zeros 4 ++ [1, 2, 3, 4] ++ zeros 8 := by
  decide

/-- R88: while BUSY = 1 a register write sets WBUSY and is ignored. -/
theorem test_busy_write : (nextOf (hostWriteWith toy 0x014 5 (State.reset.accept 0))).status.wbusy = true ∧
    (nextOf (hostWriteWith toy 0x014 5 (State.reset.accept 0))).pktLen = 0 := by decide

/-- R85, I6: beyond the map (0x1040 with 64 bytes of PKT) a read returns 0 and a write is ignored, and sets no WBUSY. -/
theorem test_beyond_map : hostReadWith toy 0x1040 (State.reset.accept 0) = .next { State.reset.accept 0 with readData := 0 } ∧
    hostWriteWith toy 0x1040 5 (State.reset.accept 0) = .next (State.reset.accept 0) := ⟨rfl, rfl⟩

/-- R34, R280: IE set while DONE = 1 raises IRQ; SRST drops it. -/
theorem test_irq : (nextOf (hostWriteWith toy 0x008 1 (State.reset.complete .ok))).irq = true ∧
    (nextOf (hostWriteWith toy 0x008 3 (State.reset.complete .ok))).irq = false := by decide

/-- R300, R32: the registers after reset, through the bus. -/
theorem test_reset_reads : (nextOf (hostReadWith toy 0x000 State.reset)).readData = 0x53525450 ∧
    (nextOf (hostReadWith toy 0x004 State.reset)).readData = 1 ∧ (nextOf (hostReadWith toy 0x00C State.reset)).readData = 0 := by decide

/-- The very next step after `withFetchWord` runs the word: NOP's STATUS, and an illegal word's. -/
theorem test_step_runs : (nextOf (step (State.reset.withFetchWord 32 0x00000000))).status.word = 0x00000002 ∧
    (nextOf (step (State.reset.withFetchWord 32 0x0001000B))).status.word = 0x000B0902 := by decide

/-! ### Witnesses: for each obligation with hypotheses, a concrete state and operands that meet all of them together, at the
boundary values of each clause. Which key sizes the cipher port of this instance accepts is not known, and it may accept none
(log 2), so where a key takes part the state is given for every size `k` that it accepts, and for the ports of `toy`, which
accept 16 bytes and the algorithm 1, with no premise. -/

/-- A key size that the cipher port accepts is 1 to 32 bytes (R7). -/
theorem accepted_window {k : Byte} (h : KeySizeAccepted k) : k ≠ 0 ∧ k.toNat ≤ 32 := by
  have h1 : Config.keyBitsOk (8 * k.toNat) = true := h
  simp only [Config.keyBitsOk, Bool.and_eq_true, decide_eq_true_eq] at h1
  refine ⟨fun h0 => ?_, by omega⟩
  rw [h0] at h1
  exact absurd h1.2.1 (by decide)

/-- A state with a session key and a master key of `k` bytes, their salts, a 12-byte packet of zeros, and room for a footer. -/
def keyed (k : Byte) : State :=
  { State.reset with
    ekeyLen := k, saltLen := 16, mkeyLen := k, msaltLen := 16, kdr := 0x1000000, pktLen := 12 }

theorem keyed_ekey {k : Byte} (hk : KeySizeAccepted k) (s : State) (h : s.ekeyLen = k) : EkeyReady s := by
  subst h; exact ⟨(accepted_window hk).1, (accepted_window hk).2, hk⟩

theorem keyed_salt (s : State) (h : s.saltLen = 16) : SaltReady s := by unfold SaltReady; rw [h]; decide

theorem keyed_master {k : Byte} (hk : KeySizeAccepted k) (s : State) (h : s.mkeyLen = k) (h1 : s.msaltLen = 16)
    (h2 : s.kdr = 0x1000000) : MasterReady s := by
  subst h
  unfold MasterReady MasterReadyWith
  rw [h1, h2]
  exact ⟨(accepted_window hk).1, by decide, (accepted_window hk).2, by decide, by decide, hk⟩

theorem fits_of_le (n : Nat) (h : n ≤ 64) : n ≤ Config.params.pktCap := le_trans h pktCap_bounds.1

theorem witness_DecodeOfEncode : Instr.wf (.kdfRtp .decrypt 0xFF 3) = true := by decide

theorem witness_EncodeOfDecode : decode 0x03FF0104 = .ok (.kdfRtp .decrypt 0xFF 3) := by decide

theorem witness_LegalWords : (0x03FF0104 : Word) &&& 0xFC00FEFF = 0x04 ∧ ((0x04, 0xFC00FEFF) : Word × Word) ∈ commandTable := by decide

theorem witness_IllegalWords : IllegalWord 0x00000013 ∧ State.reset.status.busy = false ∧
    IllegalWord (State.reset.accept 0x04000004).pending ∧ (State.reset.accept 0x04000004).mode = .busy := by
  refine ⟨.inl (by decide), rfl, ?_, rfl⟩
  exact .inr (.inr (.inr (.inr (.inr (by decide)))))

theorem witness_StepRuns : (State.reset.accept 0x00000303).nextEvent = .engineTurn ∧ (State.reset.accept 0x00000303).mode = .busy ∧
    decode (State.reset.accept 0x00000303).pending = .ok (.cmXor .decrypt .rtcp) ∧ State.reset.nextEvent = .engineTurn ∧
    State.reset.mode = .idle ∧ decodeTableWord 32 0x00000303 = some (.cmXor .decrypt .rtcp) := by decide

/-- One schedule for each event of the host that can be next. -/
theorem witness_StepRunsHostEvents :
    ({ State.reset with schedule := [.hostRead 0x1FC] } : State).nextEvent = .hostRead 0x1FC ∧
    ({ State.reset with schedule := [.hostWrite 0x024 0xFFFFFFFF, .engineTurn] } : State).nextEvent = .hostWrite 0x024 0xFFFFFFFF ∧
    (let ram : Ram := ⟨fit 32 [], fit 16 [], fit 32 [], fit 16 [], fit 64 [], fit 16 [], [0x5A]⟩
     ({ State.reset with schedule := [.hardReset ram] } : State).nextEvent = .hardReset ram) := by decide

theorem witness_WrittenCommand : State.reset.status.busy = false ∧ decode 0 = .ok .nop ∧ AlignedInMap 0x103C ∧ (0x103C ≠ 0x00C) ∧
    ({ State.reset with schedule := [.hostWrite 0x010 0, .hostWrite 0x103C 1, .engineTurn] } : State).schedule =
      .hostWrite 0x010 0 :: .hostWrite 0x103C 1 :: .engineTurn :: [] :=
  ⟨rfl, by decide, ⟨by decide, .inr (lt_of_lt_of_le (by decide) pktCap_bounds.1)⟩, by decide, rfl⟩

theorem witness_HardReset : (0 : Nat) < Config.params.pktCap ∧
    0 < (Ram.mk (fit 32 []) (fit 16 []) (fit 32 []) (fit 16 []) (fit 64 []) (fit 16 []) [0x5A]).pkt.length :=
  ⟨lt_of_lt_of_le (by decide) pktCap_bounds.1, by decide⟩

theorem witness_SoftReset : (0x2 : Word).getLsbD 1 = true ∧ rtpState.status.busy = false ∧ (rtpState.accept 0).status.busy = true := by
  decide

/-- A state with a host write still to come, from which a step is taken. -/
theorem witness_EveryStepKeeps : Inv { State.reset with schedule := [.hostWrite 0x010 0x00000303] } ∧
    ∃ t, step { State.reset with schedule := [.hostWrite 0x010 0x00000303] } = .next t ∧ t.mode = .busy :=
  ⟨⟨by decide, by decide, by decide, by decide, by decide⟩, _, rfl, by decide⟩

theorem exec_some (i : Instr) (s : State) (h : ∃ checks done, exec i s = runCommand s checks done) : ∃ t, exec i s = .next t := by
  obtain ⟨c, d, e⟩ := h
  rcases runCommand_cases s c d with ⟨_, _, h⟩ | ⟨_, h⟩ <;> exact ⟨_, e.trans h⟩

theorem witness_EveryCommandCompletes : (State.reset.accept 0x04000004).mode = .busy := rfl

theorem witness_CommandsReportOnly : (∃ t, exec .nop State.reset = .next t) ∧ (∃ t, exec .f8IvRtp State.reset = .next t) ∧
    (∃ t, exec .cmIvRtcp State.reset = .next t) ∧ (∃ t, exec (.f8Xor .encrypt .rtp) State.reset = .next t) ∧
    (∃ t, exec .srtcpProtect State.reset = .next t) ∧ (∃ t, exec .srtcpUnprotect State.reset = .next t) :=
  ⟨⟨_, rfl⟩, exec_some _ _ ⟨_, _, exec_f8IvRtp _⟩, exec_some _ _ ⟨_, _, exec_cmIvRtcp _⟩, exec_some _ _ ⟨_, _, exec_f8Xor _ _ _⟩,
    exec_some _ _ ⟨_, _, exec_srtcpProtect _⟩, exec_some _ _ ⟨_, _, exec_srtcpUnprotect _⟩⟩

/-- NOP's OP value is in none of the lists. -/
theorem witness_OnlyTheNamed : (∃ t, exec .nop rtpState = .next t) ∧ Instr.opcode .nop ∉ ([0x01, 0x02, 0x08, 0x09] : List Byte) ∧
    Instr.opcode .nop ∉ ([0x0A, 0x0B] : List Byte) ∧ Instr.opcode .nop ∉ ([0x04, 0x05] : List Byte) ∧
    Instr.opcode .nop ∉ ([0x11, 0x12, 0x15, 0x16] : List Byte) ∧ Instr.opcode .nop ∉ ([0x10, 0x11, 0x12, 0x14, 0x15, 0x16] : List Byte) ∧
    Instr.opcode .nop ∉ ([0x03, 0x04, 0x05, 0x0B, 0x10, 0x11, 0x14, 0x15] : List Byte) := by
  refine ⟨⟨_, rfl⟩, ?_⟩; decide

theorem witness_Nop : (0x00000100 : Word).extractLsb' 0 8 = 0 ∧ (0x00000100 : Word) ≠ 0 := by decide

theorem witness_CmIvRtp : SaltReady (keyed 0) ∧ PacketFits (keyed 0) ∧ 12 ≤ (keyed 0).pktLen.toNat :=
  ⟨keyed_salt _ rfl, fits_of_le 12 (by decide), by decide⟩

theorem witness_CmIvRtcp : SaltReady { keyed 0 with pktLen := 8 } ∧ PacketFits { keyed 0 with pktLen := 8 } ∧
    8 ≤ ({ keyed 0 with pktLen := 8 } : State).pktLen.toNat :=
  ⟨keyed_salt _ rfl, fits_of_le 8 (by decide), by decide⟩

/-- The whole of a 64-byte buffer, and an empty range. -/
theorem witness_CmXor {k : Byte} (hk : KeySizeAccepted k) : (keyed k).pkt.wf = true ∧ EkeyReady (keyed k) ∧ RangeFits (keyed k) ∧
    EkeyReady { keyed k with boff := 4, blen := 60 } ∧ RangeFits { keyed k with boff := 4, blen := 60 } :=
  ⟨rfl, keyed_ekey hk _ rfl, fits_of_le 0 (by decide), keyed_ekey hk _ rfl, fits_of_le 64 (by decide)⟩

/-- KDR = 2^24 and a 16-byte master salt, with BLEN at both ends of each destination's range. -/
theorem witness_Kdf {k : Byte} (hk : KeySizeAccepted k) : (keyed k).pkt.wf = true ∧ MasterReady (keyed k) ∧
    MasterReady { keyed k with blen := 1 } ∧ (1 ≤ (1 : Half).toNat ∧ (1 : Half).toNat ≤ 16) ∧
    MasterReady { keyed k with blen := 32 } ∧ (1 ≤ (32 : Half).toNat ∧ (32 : Half).toNat ≤ 32) ∧
    MasterReady { keyed k with blen := 64 } ∧ (1 ≤ (64 : Half).toNat ∧ (64 : Half).toNat ≤ 64) ∧
    MasterReady { keyed k with blen := 16 } ∧ (1 ≤ (16 : Half).toNat ∧ (16 : Half).toNat ≤ 16) ∧
    RangeFits (keyed k) ∧ RangeFits { keyed k with boff := 0, blen := 64 } :=
  ⟨rfl, keyed_master hk _ rfl rfl rfl, keyed_master hk _ rfl rfl rfl, by decide, keyed_master hk _ rfl rfl rfl, by decide,
    keyed_master hk _ rfl rfl rfl, by decide, keyed_master hk _ rfl rfl rfl, by decide, fits_of_le 0 (by decide),
    fits_of_le 64 (by decide)⟩

theorem witness_F8IvRtp : PacketFits (keyed 0) ∧ 12 ≤ (keyed 0).pktLen.toNat := ⟨fits_of_le 12 (by decide), by decide⟩

theorem witness_F8IvRtcp : PacketFits { keyed 0 with pktLen := 8 } ∧ 8 ≤ ({ keyed 0 with pktLen := 8 } : State).pktLen.toNat :=
  ⟨fits_of_le 8 (by decide), by decide⟩

theorem witness_F8IvPrime {k : Byte} (hk : KeySizeAccepted k) : EkeyReady (keyed k) ∧ SaltReady (keyed k) :=
  ⟨keyed_ekey hk _ rfl, keyed_salt _ rfl⟩

theorem witness_F8Xor {k : Byte} (hk : KeySizeAccepted k) : (keyed k).pkt.wf = true ∧ EkeyReady (keyed k) ∧ SaltReady (keyed k) ∧
    RangeFits (keyed k) :=
  ⟨rfl, keyed_ekey hk _ rfl, keyed_salt _ rfl, fits_of_le 0 (by decide)⟩

/-- The conditions of CM_XOR, the KDFs, F8_IVPRIME and F8_XOR over the ports of `toy`, and that the commands then run. -/
theorem witness_keyed_toy : EkeyReadyWith toy (keyed 16) ∧ SaltReady (keyed 16) ∧ RangeFitsWith toy (keyed 16) ∧
    RangeFitsWith toy { keyed 16 with boff := 4, blen := 60 } ∧ MasterReadyWith toy { keyed 16 with blen := 16 } ∧
    (nextOf (cmXorWith toy .encrypt .rtp (keyed 16))).status.code = .ok ∧
    (nextOf (kdfRtpWith toy .encrypt 0 2 { keyed 16 with blen := 16 })).status.code = .ok ∧
    (nextOf (kdfRtcpWith toy .encrypt 0 3 { keyed 16 with boff := 4, blen := 60 })).status.code = .ok ∧
    (nextOf (f8IvPrimeWith toy .encrypt .rtp (keyed 16))).status.code = .ok ∧
    (nextOf (f8XorWith toy .encrypt .rtp (keyed 16))).status.code = .ok := by decide

/-- A class that encrypts with an AES-CM or AES-F8 cipher, or not at all, and appends an MKI of 16 bytes. -/
def mkiCfg (enc : BitVec 2) : Cfg := ⟨enc, true, 0, 0, 16, 0⟩

/-- `keyed` with that configuration in both classes. -/
def framed (k : Byte) (enc : BitVec 2) : State := { keyed k with cfgRtp := mkiCfg enc, cfgRtcp := mkiCfg enc }

/-- With ENC = 0 no key is needed; with ENC 1 and 2 a key of an accepted size. -/
theorem framed_ready {k : Byte} {enc : BitVec 2} (hk : enc = 0 ∨ KeySizeAccepted k) (h : enc ≠ 3) (s : State) (h1 : s.ekeyLen = k)
    (h2 : s.saltLen = 16) (h3 : s.pktLen.toNat ≤ 64) : FramerReady (mkiCfg enc) s := by
  refine ⟨h, rfl, fun _ => (by decide : (16 : Byte).toNat ≤ 16), fits_of_le _ h3, fun he => ?_, fun h => absurd rfl h⟩
  rcases hk with rfl | hk
  · exact absurd he (by decide)
  · exact ⟨keyed_ekey hk _ h1, keyed_salt _ h2⟩

theorem cap_sub (n m : Nat) (h : n + m ≤ 64) : n ≤ Config.params.pktCap - m := by
  have := pktCap_bounds.1; omega

/-- In clear, and with AES-CM. -/
theorem witness_SrtpProtect : (framed 0 0).pkt.wf = true ∧ FramerReady (framed 0 0).cfgRtp (framed 0 0) ∧
    (framed 0 0).cfgRtp.m + (framed 0 0).cfgRtp.t ≤ Config.params.pktCap - (framed 0 0).pktLen.toNat ∧
    rtpHdrLen (framed 0 0).pkt (framed 0 0).pktLen.toNat = some 12 ∧
    (∀ k, KeySizeAccepted k → FramerReady (framed k 1).cfgRtp (framed k 1)) :=
  ⟨by decide, framed_ready (.inl rfl) (by decide) _ rfl rfl (by decide), cap_sub 16 12 (by decide), by decide,
    fun _ hk => framed_ready (.inr hk) (by decide) _ rfl rfl (by decide : (12 : Half).toNat ≤ 64)⟩

/-- A received packet of 28 bytes: a 12-byte header and a 16-byte MKI. -/
def received (k : Byte) (enc : BitVec 2) : State := { framed k enc with pktLen := 28 }

/-- In clear, and with AES-F8. -/
theorem witness_SrtpUnprotect : (received 0 0).pkt.wf = true ∧ FramerReady (received 0 0).cfgRtp (received 0 0) ∧
    12 + (received 0 0).cfgRtp.m + (received 0 0).cfgRtp.t ≤ (received 0 0).pktLen.toNat ∧
    12 + (received 0 0).cfgRtp.m + (received 0 0).cfgRtp.t = (received 0 0).pktLen.toNat ∧
    TagMatches (received 0 0).cfgRtp (received 0 0) ((received 0 0).pkt.load 0 12 ++ beBytes 4 (received 0 0).roc.toNat) ∧
    rtpHdrLen (received 0 0).pkt 12 = some 12 ∧
    (∀ k, KeySizeAccepted k → FramerReady (received k 2).cfgRtp (received k 2)) :=
  ⟨by decide, framed_ready (.inl rfl) (by decide) _ rfl rfl (by decide), by decide, by decide, .inl rfl, by decide,
    fun _ hk => framed_ready (.inr hk) (by decide) _ rfl rfl (by decide : (28 : Half).toNat ≤ 64)⟩

theorem witness_SrtpParse : ((received 0 2).cfgRtp.mkiEn = true → (received 0 2).cfgRtp.mkiLen.toNat ≤ 16) ∧ PacketFits (received 0 2) ∧
    12 + (received 0 2).cfgRtp.m + (received 0 2).cfgRtp.t ≤ (received 0 2).pktLen.toNat ∧
    12 + (received 0 2).cfgRtp.m + (received 0 2).cfgRtp.t = (received 0 2).pktLen.toNat ∧ rtpHdrLen (received 0 2).pkt 12 = some 12 :=
  ⟨fun _ => by decide, fits_of_le 28 (by decide), by decide, by decide, by decide⟩

/-- In clear, with E = 0 in the trailer, and with AES-CM, with E = 1. -/
theorem witness_SrtcpProtect : ({ framed 0 0 with pktLen := 8 } : State).pkt.wf = true ∧
    FramerReady (mkiCfg 0) { framed 0 0 with pktLen := 8 } ∧
    4 + (mkiCfg 0).m + (mkiCfg 0).t ≤ Config.params.pktCap - ({ framed 0 0 with pktLen := 8 } : State).pktLen.toNat ∧
    8 ≤ ({ framed 0 0 with pktLen := 8 } : State).pktLen.toNat ∧
    trailerWord (decide ((mkiCfg 0).enc ≠ 0)) ({ framed 0 0 with pktLen := 8 } : State).index31 = 0 ∧
    (∀ k, KeySizeAccepted k → FramerReady (mkiCfg 1) { framed k 1 with pktLen := 8 } ∧
      trailerWord (decide ((mkiCfg 1).enc ≠ 0)) ({ framed k 1 with pktLen := 8 } : State).index31 = 0x80000000) :=
  ⟨by decide, framed_ready (.inl rfl) (by decide) _ rfl rfl (by decide), cap_sub 20 8 (by decide), by decide, by decide,
    fun _ hk => ⟨framed_ready (.inr hk) (by decide) _ rfl rfl (by decide : (8 : Half).toNat ≤ 64),
      (by decide : trailerWord true ((0 : Word).extractLsb' 0 31) = 0x80000000)⟩⟩

/-- E = 0 in the trailer of `received`, in clear; and E = 1 in that of a packet with 80 at offset 8, decrypted with AES-F8. -/
theorem witness_SrtcpUnprotect : (received 0 0).pkt.wf = true ∧ FramerReady (received 0 0).cfgRtcp (received 0 0) ∧
    12 + (received 0 0).cfgRtcp.m + (received 0 0).cfgRtcp.t ≤ (received 0 0).pktLen.toNat ∧
    12 + (received 0 0).cfgRtcp.m + (received 0 0).cfgRtcp.t = (received 0 0).pktLen.toNat ∧
    (0 : Word) = BitVec.ofNat 32 (beRead ((received 0 0).pkt.load (12 - 4) 4)) ∧
    TagMatches (received 0 0).cfgRtcp (received 0 0) ((received 0 0).pkt.load 0 12) ∧
    ((0 : Word).getLsbD 31 = true → (received 0 0).cfgRtcp.enc ≠ 0) ∧
    (∀ k, KeySizeAccepted k → FramerReady (received k 2).cfgRtcp { received k 2 with pkt := [(8, 0x80)] }) ∧
    (0x80000000 : Word) = BitVec.ofNat 32 (beRead (({ received 0 2 with pkt := [(8, 0x80)] } : State).pkt.load (12 - 4) 4)) ∧
    ((0x80000000 : Word).getLsbD 31 = true → (received 0 2).cfgRtcp.enc ≠ 0) :=
  ⟨by decide, framed_ready (.inl rfl) (by decide) _ rfl rfl (by decide), by decide, by decide, by decide, .inl rfl, by decide,
    fun _ hk => framed_ready (.inr hk) (by decide) _ rfl rfl (by decide : (28 : Half).toNat ≤ 64), by decide, by decide⟩

theorem witness_SrtcpParse : ((received 0 2).cfgRtcp.mkiEn = true → (received 0 2).cfgRtcp.mkiLen.toNat ≤ 16) ∧ PacketFits (received 0 2) ∧
    12 + (received 0 2).cfgRtcp.m + (received 0 2).cfgRtcp.t ≤ (received 0 2).pktLen.toNat ∧
    12 + (received 0 2).cfgRtcp.m + (received 0 2).cfgRtcp.t = (received 0 2).pktLen.toNat :=
  ⟨fun _ => by decide, fits_of_le 28 (by decide), by decide, by decide⟩

/-- What SRTP_PROTECT makes of `rtpState`, and SRTCP_PROTECT of `rtcpState`, over the ports of `toy`. -/
def srtpSent : State := nextOf (srtpProtectWith toy rtpState)
def srtcpSent : State := nextOf (srtcpProtectWith toy rtcpState)

/-- The framers' conditions with a tag, and for SRTCP with a cipher, over the ports of `toy`: what was sent authenticates. -/
theorem witness_framer_toy : FramerReadyWith toy rtpState.cfgRtp rtpState ∧ FramerReadyWith toy rtcpState.cfgRtcp rtcpState ∧
    FramerReadyWith toy srtpSent.cfgRtp srtpSent ∧ FramerReadyWith toy srtcpSent.cfgRtcp srtcpSent ∧
    TagMatchesWith toy srtpSent.cfgRtp srtpSent (srtpSent.pkt.load 0 13 ++ beBytes 4 srtpSent.roc.toNat) ∧
    TagMatchesWith toy srtcpSent.cfgRtcp srtcpSent (srtcpSent.pkt.load 0 13) := by
  refine ⟨?_, ?_, ?_, ?_, by decide, by decide⟩ <;> refine ⟨?_, ?_, ?_, ?_, ?_, ?_⟩ <;> decide

theorem witness_PayloadTransform : (framed 0 0).cfgRtp.enc = 0 ∧ (framed 0 1).cfgRtp.enc = 1 ∧ (framed 0 2).cfgRtp.enc = 2 ∧
    (framed 0 0).cfgRtcp.enc = 0 ∧ (framed 0 1).cfgRtcp.enc = 1 ∧ (framed 0 2).cfgRtcp.enc = 2 := by decide

/-- The premise of both SRTP round trips: a protect command that completes with OK, in clear and with AES-F8. -/
theorem witness_SrtpRoundTrip (k : Byte) (enc : BitVec 2) (hk : (k = 0 ∧ enc = 0) ∨ (enc = 2 ∧ KeySizeAccepted k)) :
    (framed k enc).pkt.wf = true ∧ ∃ t, exec .srtpProtect (framed k enc) = .next t ∧ t.status.code = .ok := by
  have hr : FramerReady (framed k enc).cfgRtp (framed k enc) :=
    framed_ready (hk.imp (·.2) (·.2)) (by rcases hk with ⟨_, rfl⟩ | ⟨rfl, _⟩ <;> decide) _ rfl rfl (by decide : (12 : Half).toNat ≤ 64)
  have h1 : decide (Config.params.pktCap - (framed k enc).packetLen < (framed k enc).cfgRtp.m + (framed k enc).cfgRtp.t) = false :=
    decide_eq_false (not_lt.mpr (cap_sub 16 12 (by decide)))
  have h2 : (rtpHdrLen (framed k enc).pkt (framed k enc).packetLen).isNone = false := by
    show (rtpHdrLen [] 12).isNone = false
    decide
  simp only [exec_srtpProtect]
  refine ⟨rfl, _, runCommand_of_none ?_, rfl⟩
  rw [srtpProtectChecks, firstRaised_append, firstRaised_frCheckFull, (framerCode_eq_none_iff _ _).2 hr]
  generalize framed k enc = s at h1 h2 ⊢
  simp [h1, h2]

/-- The same for SRTCP, in clear and with AES-CM. -/
theorem witness_SrtcpRoundTrip (k : Byte) (enc : BitVec 2) (hk : (k = 0 ∧ enc = 0) ∨ (enc = 1 ∧ KeySizeAccepted k)) :
    (framed k enc).pkt.wf = true ∧ ∃ t, exec .srtcpProtect (framed k enc) = .next t ∧ t.status.code = .ok := by
  have hr : FramerReady (framed k enc).cfgRtcp (framed k enc) :=
    framed_ready (hk.imp (·.2) (·.2)) (by rcases hk with ⟨_, rfl⟩ | ⟨rfl, _⟩ <;> decide) _ rfl rfl (by decide : (12 : Half).toNat ≤ 64)
  have h1 : decide (Config.params.pktCap - (framed k enc).packetLen < 4 + (framed k enc).cfgRtcp.m + (framed k enc).cfgRtcp.t) = false :=
    decide_eq_false (not_lt.mpr (cap_sub 20 12 (by decide)))
  have h2 : decide ((framed k enc).packetLen < 8) = false := by
    show decide ((12 : Half).toNat < 8) = false
    decide
  simp only [exec_srtcpProtect]
  refine ⟨rfl, _, runCommand_of_none ?_, rfl⟩
  rw [srtcpProtectChecks, firstRaised_append, firstRaised_frCheckFull, (framerCode_eq_none_iff _ _).2 hr]
  generalize framed k enc = s at h1 h2 ⊢
  simp [h1, h2]

/-- The round trips' premise with no premise of its own: in clear. -/
theorem witness_RoundTrip_clear : (∃ t, exec .srtpProtect (framed 0 0) = .next t ∧ t.status.code = .ok) ∧
    (∃ t, exec .srtcpProtect (framed 0 0) = .next t ∧ t.status.code = .ok) :=
  ⟨(witness_SrtpRoundTrip 0 0 (.inl ⟨rfl, rfl⟩)).2, (witness_SrtcpRoundTrip 0 0 (.inl ⟨rfl, rfl⟩)).2⟩

theorem witness_CmXorTwice {k : Byte} (hk : KeySizeAccepted k) : (keyed k).pkt.wf = true ∧
    ∃ t, exec (.cmXor .encrypt .rtp) (keyed k) = .next t ∧ t.status.code = .ok := by
  simp only [exec_cmXor]
  refine ⟨rfl, _, runCommand_of_none ?_, rfl⟩
  have h1 : ¬ Config.params.pktCap < (keyed k).boff.toNat + (keyed k).blen.toNat :=
    not_lt.mpr (fits_of_le _ (by decide : (0 : Half).toNat + (0 : Half).toNat ≤ 64))
  have h2 : keyAccepted Config.params (keyed k).ekeyLen = true := hk
  have h3 : (keyed k).ekeyLen ≠ 0#8 := (accepted_window hk).1
  have h4 : ¬ 32 < (keyed k).ekeyLen.toNat := not_lt.mpr (accepted_window hk).2
  simp [cmXorChecks, h1, h2, h3, h4]

/-- Block 3 of a keystream of 49 bytes: one byte of it. -/
theorem witness_CmXorIsALength : 16 * 3 < 49 ∧ (fit 16 (List.replicate 14 0xFF ++ [0, 3])).toList =
    (fit 16 (List.replicate 16 0xFF)).toList.take 14 ++ [BitVec.ofNat 8 (3 / 256), BitVec.ofNat 8 3] := by decide

/-- Block 1 of 17 bytes of zeros after a block 0 of zeros, under `toy` with the key byte 23 and IV′ of zeros: the chained
block is 23 in every byte, so the cipher's input is that, with 22 at its end. -/
theorem witness_F8Recurrence : 16 * (0 + 1) < (zeros 17).length ∧
    xorBytes (slice (zeros 17) 0 16) (slice (f8Process toy ⟨.direct, .rtp, .encrypt⟩ [0x23] (fit 16 []) (zeros 17) .encrypt) 0 16) =
      List.replicate 16 0x23 ∧
    (fit 16 (List.replicate 15 0x23 ++ [0x22])).toList = xorBytes (xorBytes (fit 16 []).toList
      (List.replicate 14 0 ++ [BitVec.ofNat 8 ((0 + 1) / 256), BitVec.ofNat 8 (0 + 1)])) (List.replicate 16 0x23) := by decide

theorem witness_F8Decryption : toy.f8Feedback = .keystream ∧ (1 : Nat) ≤ 17 := by decide

theorem witness_SaltAlignment : ([] : List Byte).length ≤ 14 ∧ saltF.length ≤ 14 ∧ 14 < (saltF ++ [0]).length := by decide

theorem witness_DerivationIv : (281474976710655 : Nat) < 2 ^ 48 ∧ (4294967295 : Nat) < 2 ^ 32 := by decide

theorem witness_DerivationQuotient : 0x123456 / (0x10000 : Word).toNat = 0x12ffff / (0x10000 : Word).toNat ∧ (14 : Nat) ≤ 16 := by decide

theorem witness_F8Mask : (15 : Nat) < (List.replicate 16 (0 : Byte)).length ∧ 15 < (f8MaskedKey (List.replicate 16 0) [1]).length := by
  decide

theorem witness_RtpHeaderLength : (15 : Nat) = (Memory.read [(0, 0x9F)] 0).toNat % 16 ∧
    (0 : Nat) = beRead (Memory.load [(0, 0x9F)] (12 + 4 * 15 + 2) 2) := by decide

/-- The first and last offset below 0x1000, and the first and last of a 64-byte PKT. -/
theorem witness_Reads : (0 : Nat) < 0x1000 ∧ 0xFFF < 0x1000 ∧ 0x1000 - 0x1000 < Config.params.pktCap ∧ 0x103F - 0x1000 < Config.params.pktCap ∧
    State.reset.status.busy = false :=
  ⟨by decide, by decide, fits_of_le 1 (by decide), fits_of_le 64 (by decide), rfl⟩

theorem witness_AccessesWhileBusy : (State.reset.accept 0).status.busy = true ∧ AlignedInMap 0x008 ∧ AlignedInMap 0xFFC ∧ AlignedInMap 0x103C :=
  ⟨rfl, ⟨by decide, .inl (by decide)⟩, ⟨by decide, .inl (by decide)⟩, ⟨by decide, .inr (fits_of_le 61 (by decide))⟩⟩

theorem witness_CommandWrite : State.reset.status.busy = false ∧ (State.reset.accept 0x00000303).status.busy = true := by decide

theorem witness_PacketWords : 4 * 15 + 4 ≤ Config.params.pktCap ∧ rtpState.pkt.wf = true ∧ rtpState.status.busy = false :=
  ⟨fits_of_le 64 (by decide), by decide, rfl⟩

/-- R31's nine windows. -/
def mapRows : List WindowRow :=
  [⟨0x100, 32, .mkey⟩, ⟨0x120, 16, .msalt⟩, ⟨0x140, 32, .ekey⟩, ⟨0x160, 16, .salt⟩, ⟨0x180, 64, .akey⟩, ⟨0x1C0, 16, .mki⟩,
   ⟨0x1D0, 16, .rxMki⟩, ⟨0x1E0, 16, .ivreg⟩, ⟨0x1F0, 16, .ivpreg⟩]

/-- The last word of AKEY, and a word of each read-only window. -/
theorem witness_WindowWords : (⟨0x180, 64, .akey⟩ : WindowRow) ∈ mapRows ∧ 4 * 15 + 4 ≤ 64 ∧ WindowName.akey ≠ .rxMki ∧
    WindowName.akey ≠ .ivpreg ∧ (⟨0x1D0, 16, .rxMki⟩ : WindowRow) ∈ mapRows ∧ (⟨0x1F0, 16, .ivpreg⟩ : WindowRow) ∈ mapRows ∧
    4 * 3 + 4 ≤ 16 ∧ State.reset.status.busy = false := by decide

theorem witness_Misaligned : 0x1001 % 4 ≠ 0 ∧ 0xFFF % 4 ≠ 0 ∧ 0x1000 + Config.params.pktCap ≤ 0x1000 + Config.params.pktCap :=
  ⟨by decide, by decide, le_rfl⟩

/-- An idle state; the ends of each range of unmapped words. -/
theorem witness_Registers : State.reset.status.busy = false ∧ (0x048 % 4 = 0 ∧ 0x048 < 0x060) ∧ 0x05C < 0x060 ∧
    (0x07C % 4 = 0 ∧ 0x0FC < 0x100) ∧ (0x130 % 4 = 0 ∧ 0x13C < 0x140) ∧ (0x170 % 4 = 0 ∧ 0x17C < 0x180) ∧
    (0x200 % 4 = 0 ∧ 0xFFC < 0x1000) := by decide

/-- The configuration word of R222's example: ENC = 1, MKI_EN = 1, AUTH = 1, TAG_LEN = 10, MKI_LEN = 4. -/
theorem witness_ConfigurationFields : State.reset.status.busy = false ∧ (⟨1, true, 1, 10, 4, 0⟩ : Cfg) =
    ⟨(0x00040A19 : Word).extractLsb' 0 2, (0x00040A19 : Word).getLsbD 3, (0x00040A19 : Word).extractLsb' 4 4,
      (0x00040A19 : Word).extractLsb' 8 8, (0x00040A19 : Word).extractLsb' 16 8, (0x00040A19 : Word).extractLsb' 24 8⟩ := by decide

theorem witness_ControlAndResults : rtpState.status.busy = false ∧ (0x1 : Word).getLsbD 1 = false := by decide

/-- A command in flight while IRQ is up, and the write that acknowledges it, which drops IRQ. -/
theorem witness_Interrupt : (∃ t, exec .nop rtpState = .next t) ∧ (0x6 : Word).getLsbD 1 = true ∧ State.reset.status.busy = false ∧
    (0x1 : Word).getLsbD 1 = false ∧
    (let s : State := { State.reset with ie := true, status := ⟨false, true, false, .ok, 0⟩, schedule := [.hostWrite 0x00C 0x6] }
     s.irq = true ∧ s.nextEvent = .hostWrite 0x00C 0x6 ∧ ∃ t, step s = .next t ∧ t.irq = false) :=
  ⟨⟨_, rfl⟩, by decide, rfl, by decide, by decide, by decide, _, rfl, by decide⟩

theorem witness_NoCommandReadsIvpreg : ∃ t, exec (.f8Xor .encrypt .rtp) f8State = .next t := exec_some _ _ ⟨_, _, exec_f8Xor _ _ _⟩

/-- Windows that differ only from byte LEN on. -/
theorem witness_BytesBeyond : (∃ t, exec (.f8Xor .encrypt .rtp) f8State = .next t) ∧
    (fit 32 (List.replicate 32 0xFF)).toList.take f8State.mkeyLen.toNat = f8State.mkey.toList.take f8State.mkeyLen.toNat ∧
    (fit 16 (List.replicate 16 0xFF)).toList.take f8State.msaltLen.toNat = f8State.msalt.toList.take f8State.msaltLen.toNat ∧
    (fit 32 ([0x23] ++ zeros 15 ++ [0xFF])).toList.take f8State.ekeyLen.toNat = f8State.ekey.toList.take f8State.ekeyLen.toNat ∧
    (fit 64 (List.replicate 64 0xFF)).toList.take f8State.akeyLen.toNat = f8State.akey.toList.take f8State.akeyLen.toNat ∧
    (fit 16 ([0x32] ++ zeros 3 ++ [0xFF])).toList.take f8State.saltLen.toNat = f8State.salt.toList.take f8State.saltLen.toNat := by
  refine ⟨exec_some _ _ ⟨_, _, exec_f8Xor _ _ _⟩, ?_⟩
  decide

theorem witness_IndexBits : (∃ t, exec .srtpParse rtpState = .next t) ∧ Instr.opcode .srtpParse ∈ ([0x08, 0x10, 0x11, 0x12] : List Byte) ∧
    (0x00020000 : Word).extractLsb' 16 16 = rtpState.idxLo.extractLsb' 16 16 ∧
    (∃ t, exec .srtcpProtect rtcpState = .next t) ∧ Instr.opcode .srtcpProtect ∈ ([0x02, 0x05, 0x09, 0x14] : List Byte) ∧
    Instr.opcode .srtcpProtect ∈ ([0x02, 0x05, 0x14] : List Byte) ∧ (5 : Word).extractLsb' 0 31 = rtcpState.idxLo.extractLsb' 0 31 ∧
    (∃ t, exec .srtcpParse rtcpState = .next t) ∧ Instr.opcode .srtcpParse ∈ ([0x15, 0x16] : List Byte) :=
  ⟨exec_some _ _ ⟨_, _, exec_srtpParse _⟩, by decide, by decide, exec_some _ _ ⟨_, _, exec_srtcpProtect _⟩, by decide, by decide,
    by decide, exec_some _ _ ⟨_, _, exec_srtcpParse _⟩, by decide⟩

theorem witness_DirAndCls : toy.f8Feedback = .keystream := rfl

end Sys2Proof.Tests
end

/-! PROOFS. Every command as its checks and one effect: what it writes, as data. -/

namespace Sys2Proof.Machine

/-- What a command that passes its checks writes, as data; `State.apply` writes it. -/
inductive Effect where
  | none
  | ivreg (iv : Block)
  | ivpreg (iv : Block)
  | pkt (m : Memory)
  | ivpregPkt (iv : Block) (m : Memory)
  | derived (dest : Dest) (out : List Byte)
  | framed (m : Memory) (len : Half) (r : Results)
  | report (mki : Vector Byte 16) (r : Results)
  | unframed (mki : Vector Byte 16) (r : Results) (m : Memory) (len : Half)

/-- The writes of an effect. -/
def State.apply (s : State) : Effect → State
  | .none => s
  | .ivreg iv => { s with ivreg := iv }
  | .ivpreg iv => { s with ivpreg := iv }
  | .pkt m => { s with pkt := m }
  | .ivpregPkt iv m => { s with ivpreg := iv, pkt := m }
  | .derived dest out => s.putDerived dest out
  | .framed m len r => { s with pkt := m, pktLen := len, res := r }
  | .report mki r => { s with rxMki := mki, res := r }
  | .unframed mki r m len => { s with rxMki := mki, res := r, pkt := m, pktLen := len }

/-- The checks of a KDF command: a reserved DEST is an illegal word (log 17). -/
def kdfDestChecks (P : Params) (s : State) (dest : BitVec 3) : List Check :=
  match destOf dest with
  | none => [(true, .illegalCommand)]
  | some d => kdfChecks P s d

/-- The effect of a KDF command: the derived bytes, to the destination. -/
def kdfEffect (dest : BitVec 3) (out : List Byte) : Effect :=
  match destOf dest with
  | none => .none
  | some d => .derived d out

/-- The checks of each command, in the order of its rule (R273). -/
def checksOf (P : Params) (i : Instr) (s : State) : List Check :=
  match i with
  | .nop => []
  | .cmIvRtp => cmIvChecks P s 12
  | .cmIvRtcp => cmIvChecks P s 8
  | .cmXor _ _ => cmXorChecks P s
  | .kdfRtp _ _ dest => kdfDestChecks P s dest
  | .kdfRtcp _ _ dest => kdfDestChecks P s dest
  | .f8IvRtp => f8IvChecks P s 12
  | .f8IvRtcp => f8IvChecks P s 8
  | .f8IvPrime _ _ => f8KeyChecks s ++ [(!keyAccepted P s.ekeyLen, .failed)]
  | .f8Xor _ _ => f8KeyChecks s ++
      [(decide (P.pktCap < s.boff.toNat + s.blen.toNat), .badParameter), (!keyAccepted P s.ekeyLen, .failed)]
  | .srtpProtect => srtpProtectChecks P s
  | .srtpUnprotect => srtpUnprotectChecks P s
  | .srtpParse => srtpParseChecks P s
  | .srtcpProtect => srtcpProtectChecks P s
  | .srtcpUnprotect => srtcpUnprotectChecks P s
  | .srtcpParse => srtcpParseChecks P s

/-- The effect of each command that passes its checks. -/
def effectOf (P : Params) (i : Instr) (s : State) : Effect :=
  match i with
  | .nop => .none
  | .cmIvRtp => .ivreg (cmIvRtp s.saltBytes s.rtpSsrc s.idx)
  | .cmIvRtcp => .ivreg (cmIvRtcp s.saltBytes s.rtcpSsrc s.index31)
  | .cmXor dir cls => .pkt (s.pkt.store s.boff.toNat
      (cmXor P ⟨.direct, cls, dir⟩ s.ekeyBytes s.ivreg (s.pkt.load s.boff.toNat s.blen.toNat)))
  | .kdfRtp dir label dest => kdfEffect dest (s.derived P .rtp dir label s.idx.toNat .six)
  | .kdfRtcp dir label dest => kdfEffect dest (s.derived P .rtcp dir label s.index31.toNat P.kdfRtcpRWidth)
  | .f8IvRtp => .ivreg (f8IvRtp s.rtpHeader s.roc)
  | .f8IvRtcp => .ivreg (f8IvRtcp P s.idxE s.index31 s.rtcpHeader)
  | .f8IvPrime dir cls => .ivpreg (s.ivPrime P dir cls)
  | .f8Xor dir cls => .ivpregPkt (s.ivPrime P dir cls) (s.pkt.store s.boff.toNat
      (f8Process P ⟨.direct, cls, dir⟩ s.ekeyBytes (s.ivPrime P dir cls) (s.pkt.load s.boff.toNat s.blen.toNat) dir))
  | .srtpProtect =>
    let t := s.srtpProtected P (rtpHdrLenOr0 s.pkt s.packetLen)
    .framed t.pkt t.pktLen t.res
  | .srtpUnprotect =>
    let t := s.srtpUnprotected P (rtpHdrLenOr0 s.pkt (s.footerStart s.cfgRtp))
    .unframed t.rxMki t.res t.pkt t.pktLen
  | .srtpParse =>
    let t := s.srtpReport (rtpHdrLenOr0 s.pkt (s.footerStart s.cfgRtp))
    .report t.rxMki t.res
  | .srtcpProtect =>
    let t := s.srtcpProtected P
    .framed t.pkt t.pktLen t.res
  | .srtcpUnprotect =>
    let t := s.srtcpUnprotected P
    .unframed t.rxMki t.res t.pkt t.pktLen
  | .srtcpParse => .report s.srtcpReport.rxMki s.srtcpReport.res

/-- A KDF command as checks and effect, with a reserved DEST as a check that always fails. -/
theorem kdfWith_eq (P : Params) (cls : Cls) (dir : Dir) (label : Byte) (dest : BitVec 3) (index : Nat) (w : RWidth) (s : State) :
    kdfWith P cls dir label dest index w s =
      runCommand s (kdfDestChecks P s dest) (s.apply (kdfEffect dest (s.derived P cls dir label index w))) := by
  unfold kdfDestChecks kdfEffect
  cases h : destOf dest with
  | none => exact kdfWith_none _ _ _ _ _ _ _ _ h
  | some d => exact kdfWith_some _ _ _ _ _ _ _ _ d h

/-- Every command is its checks and its effect (R270, R273, R274). -/
theorem exec_eq (i : Instr) (s : State) :
    exec i s = runCommand s (checksOf Config.params i s) (s.apply (effectOf Config.params i s)) := by
  cases i with
  | kdfRtp dir label dest => exact kdfWith_eq ..
  | kdfRtcp dir label dest => exact kdfWith_eq ..
  | _ => rfl

/-- All that a command can do: raise a code of its checks, or pass them and write its effect. -/
theorem exec_cases {i : Instr} {s t : State} (h : exec i s = .next t) :
    (∃ c, firstRaised (checksOf Config.params i s) = some c ∧ t = s.complete c) ∨
    (firstRaised (checksOf Config.params i s) = none ∧ t = (s.apply (effectOf Config.params i s)).complete .ok) :=
  runCommand_next (exec_eq i s ▸ h)

end Sys2Proof.Machine

/-! PROOFS. What each command leaves unchanged (R30-R58). -/

namespace Sys2Proof.Machine

/-- The registers that no effect writes. -/
theorem State.apply_frame (s : State) (e : Effect) :
    s.apply e = { s with
      ivreg := (s.apply e).ivreg
      ivpreg := (s.apply e).ivpreg
      ekey := (s.apply e).ekey
      ekeyLen := (s.apply e).ekeyLen
      akey := (s.apply e).akey
      akeyLen := (s.apply e).akeyLen
      salt := (s.apply e).salt
      saltLen := (s.apply e).saltLen
      rxMki := (s.apply e).rxMki
      res := (s.apply e).res
      pktLen := (s.apply e).pktLen
      pkt := (s.apply e).pkt } := by
  cases e with
  | derived dest out => cases dest <;> rfl
  | _ => rfl

/-- A KDF command writes one session key with its length, or PKT. -/
theorem State.apply_kdfEffect (s : State) (dest : BitVec 3) (out : List Byte) :
    s.apply (kdfEffect dest out) = { s with
      ekey := (s.apply (kdfEffect dest out)).ekey
      ekeyLen := (s.apply (kdfEffect dest out)).ekeyLen
      akey := (s.apply (kdfEffect dest out)).akey
      akeyLen := (s.apply (kdfEffect dest out)).akeyLen
      salt := (s.apply (kdfEffect dest out)).salt
      saltLen := (s.apply (kdfEffect dest out)).saltLen
      pkt := (s.apply (kdfEffect dest out)).pkt } := by
  unfold kdfEffect
  cases destOf dest with
  | none => rfl
  | some d => cases d <;> rfl

section
variable (P : Params) (i : Instr) (s : State)

theorem apply_effectOf_ivreg (h : i.opcode ∉ [0x01, 0x02, 0x08, 0x09]) : (s.apply (effectOf P i s)).ivreg = s.ivreg := by
  cases i with
  | cmIvRtp | cmIvRtcp | f8IvRtp | f8IvRtcp => simp [Instr.opcode] at h
  | kdfRtp | kdfRtcp => rw [effectOf, State.apply_kdfEffect]
  | _ => simp [effectOf, State.apply]

theorem apply_effectOf_ivpreg (h : i.opcode ∉ [0x0A, 0x0B]) : (s.apply (effectOf P i s)).ivpreg = s.ivpreg := by
  cases i with
  | f8IvPrime | f8Xor => simp [Instr.opcode] at h
  | kdfRtp | kdfRtcp => rw [effectOf, State.apply_kdfEffect]
  | _ => simp [effectOf, State.apply]

theorem apply_effectOf_sessionKeys (h : i.opcode ∉ [0x04, 0x05]) :
    (s.apply (effectOf P i s)).ekey = s.ekey ∧ (s.apply (effectOf P i s)).salt = s.salt ∧
      (s.apply (effectOf P i s)).akey = s.akey ∧ (s.apply (effectOf P i s)).ekeyLen = s.ekeyLen ∧
      (s.apply (effectOf P i s)).saltLen = s.saltLen ∧ (s.apply (effectOf P i s)).akeyLen = s.akeyLen := by
  cases i with
  | kdfRtp | kdfRtcp => simp [Instr.opcode] at h
  | _ => simp [effectOf, State.apply]

theorem apply_effectOf_rxMki (h : i.opcode ∉ [0x11, 0x12, 0x15, 0x16]) : (s.apply (effectOf P i s)).rxMki = s.rxMki := by
  cases i with
  | srtpUnprotect | srtpParse | srtcpUnprotect | srtcpParse => simp [Instr.opcode] at h
  | kdfRtp | kdfRtcp => rw [effectOf, State.apply_kdfEffect]
  | _ => simp [effectOf, State.apply]

theorem apply_effectOf_res (h : i.opcode ∉ [0x10, 0x11, 0x12, 0x14, 0x15, 0x16]) :
    (s.apply (effectOf P i s)).res = s.res := by
  cases i with
  | srtpProtect | srtpUnprotect | srtpParse | srtcpProtect | srtcpUnprotect | srtcpParse => simp [Instr.opcode] at h
  | kdfRtp | kdfRtcp => rw [effectOf, State.apply_kdfEffect]
  | _ => simp [effectOf, State.apply]

theorem apply_effectOf_pktLen (h : i.opcode ∉ [0x10, 0x11, 0x14, 0x15]) : (s.apply (effectOf P i s)).pktLen = s.pktLen := by
  cases i with
  | srtpProtect | srtpUnprotect | srtcpProtect | srtcpUnprotect => simp [Instr.opcode] at h
  | kdfRtp | kdfRtcp => rw [effectOf, State.apply_kdfEffect]
  | _ => simp [effectOf, State.apply]

theorem apply_effectOf_pkt (h : i.opcode ∉ [0x03, 0x04, 0x05, 0x0B, 0x10, 0x11, 0x14, 0x15]) :
    (s.apply (effectOf P i s)).pkt = s.pkt := by
  cases i with
  | cmXor | kdfRtp | kdfRtcp | f8Xor | srtpProtect | srtpUnprotect | srtcpProtect | srtcpUnprotect =>
    simp [Instr.opcode] at h
  | _ => simp [effectOf, State.apply]

end

/-- Settles O14: a raised code changes STATUS alone, and the effect of a command has the frame that
`State.apply_frame` and the `apply_effectOf_…` lemmas say. -/
theorem onlyTheNamedCommandsWriteEachRegister : Obligations.OnlyTheNamedCommandsWriteEachRegister := by
  intro i s t h
  rcases exec_cases h with ⟨c, -, rfl⟩ | ⟨-, rfl⟩
  · simp
  · refine ⟨?_, apply_effectOf_ivreg _ i s, apply_effectOf_ivpreg _ i s, apply_effectOf_sessionKeys _ i s,
      apply_effectOf_rxMki _ i s, apply_effectOf_res _ i s, apply_effectOf_pktLen _ i s, fun hp a => ?_⟩
    · rw [State.apply_frame]
      simp
    · simp [apply_effectOf_pkt _ i s hp]

end Sys2Proof.Machine

/-! PROOFS. The invariant: a command keeps it because its checks bound what it stores, and so does every other event. -/

namespace Sys2Proof.Machine

/-- PKT's part of the invariant: the list is canonical and lists no offset outside the buffer (R52, R86). -/
structure Memory.Legal (m : Memory) : Prop where
  canonical : m.wf = true
  inBuffer : m.below Config.params.pktCap = true

theorem Memory.Legal.store {m : Memory} (h : m.Legal) (a : Nat) (bs : List Byte) (ha : a + bs.length ≤ Config.params.pktCap) :
    (m.store a bs).Legal :=
  ⟨Memory.wf_store h.canonical a bs, Memory.below_store h.inBuffer a bs ha⟩

theorem Inv.legal {s : State} (h : Inv s) : s.pkt.Legal := ⟨h.canonical, h.inBuffer⟩

/-- The invariant looks at BUSY, CODE, the mode, CMD, the pending word and PKT only. -/
theorem Inv.congr {s t : State} (h : Inv s) (hmode : t.mode = s.mode) (hbusy : t.status.busy = s.status.busy)
    (hcode : t.status.code = s.status.code) (hcmd : t.cmd = s.cmd) (hpending : t.pending = s.pending) (hpkt : t.pkt.Legal) :
    Inv t where
  busyMode := by rw [hbusy, hmode]; exact h.busyMode
  cmdPending := by rw [hcmd, hmode, hpending]; exact h.cmdPending
  canonical := hpkt.canonical
  inBuffer := hpkt.inBuffer
  codeProduced := by rw [hcode]; exact h.codeProduced

/-- A completed command leaves the invariant, whatever held before, if its code and its PKT are legal (R274). -/
theorem inv_complete {s : State} {c : Code} (hc : c.produced = true) (hpkt : s.pkt.Legal) : Inv (s.complete c) where
  busyMode := by simp
  cmdPending := by simp
  canonical := hpkt.canonical
  inBuffer := hpkt.inBuffer
  codeProduced := hc

/-! What the checks guarantee. -/

/-- A check of the list that raises nothing does not hold. -/
theorem not_of_firstRaised_none {checks : List Check} {p : Prop} [Decidable p] {c : Code} (h : firstRaised checks = none)
    (hm : (decide p, c) ∈ checks) : ¬ p :=
  of_decide_eq_false (firstRaised_eq_none.1 h _ hm)

/-- Every check of every command carries a code that the block produces (R271). -/
theorem checksOf_produced (P : Params) (i : Instr) (s : State) : ∀ x ∈ checksOf P i s, x.2.produced = true := by
  have kdf : ∀ dest : BitVec 3, (kdfDestChecks P s dest).all (·.2.produced) = true := by
    intro dest
    unfold kdfDestChecks
    split <;> rfl
  rw [← List.all_eq_true]
  cases i with
  | kdfRtp _ _ dest | kdfRtcp _ _ dest => exact kdf dest
  | _ => rfl

/-- FrCheckFull refuses a packet that is longer than the buffer (R214). -/
theorem packetLen_le_of_frCheckFull {s : State} {c : Cfg} {rest : List Check}
    (h : firstRaised (frCheckFull Config.params s c ++ rest) = none) : s.packetLen ≤ Config.params.pktCap :=
  not_lt.1 (not_of_firstRaised_none (c := .badParameter) h (by simp [frCheckFull]))

/-- A header that is parsed lies in its region; the default 0 does too (R211). -/
theorem rtpHdrLenOr0_le (p : Memory) (limit : Nat) : rtpHdrLenOr0 p limit ≤ limit := by
  unfold rtpHdrLenOr0
  cases h : rtpHdrLen p limit with
  | none => simp
  | some n => exact (rtpHdrLen_bounds h).2

theorem State.footerStart_le (s : State) (c : Cfg) : s.footerStart c ≤ s.packetLen := by
  unfold State.footerStart; omega

section
variable {s : State} (hs : s.pkt.Legal)
include hs

/-- A derivation to PKT is in range (R164, R165). -/
theorem legal_kdfEffect {dest : BitVec 3} {out : List Byte} (hl : out.length = s.blen.toNat)
    (h : firstRaised (kdfDestChecks Config.params s dest) = none) : (s.apply (kdfEffect dest out)).pkt.Legal := by
  unfold kdfDestChecks at h
  unfold kdfEffect
  cases hd : destOf dest with
  | none => exact hs
  | some d =>
    rw [hd] at h
    cases d with
    | pkt =>
      have hr := not_of_firstRaised_none (p := Config.params.pktCap < s.boff.toNat + s.blen.toNat) (c := .badParameter) h
        (by simp [kdfChecks, kdfBadLength])
      exact hs.store _ _ (by omega)
    | _ => exact hs

/-- What SRTP_PROTECT stores: payload, MKI and tag all end in the buffer (R220). -/
theorem legal_srtpProtected (h : firstRaised (srtpProtectChecks Config.params s) = none) :
    (s.srtpProtected Config.params (rtpHdrLenOr0 s.pkt s.packetLen)).pkt.Legal := by
  have hhdr := rtpHdrLenOr0_le s.pkt s.packetLen
  have hfit := packetLen_le_of_frCheckFull h
  have hroom := not_of_firstRaised_none (p := Config.params.pktCap - s.packetLen < s.cfgRtp.m + s.cfgRtp.t)
    (c := .insufficientBufferSpace) h (by simp [srtpProtectChecks])
  refine Memory.Legal.store (.store (.store hs _ _ ?_) _ _ ?_) _ _ ?_ <;> simp [State.srtpTag] <;> omega

/-- What SRTP_UNPROTECT stores: the payload (R221). -/
theorem legal_srtpUnprotected (h : firstRaised (srtpUnprotectChecks Config.params s) = none) :
    (s.srtpUnprotected Config.params (rtpHdrLenOr0 s.pkt (s.footerStart s.cfgRtp))).pkt.Legal := by
  have hhdr := rtpHdrLenOr0_le s.pkt (s.footerStart s.cfgRtp)
  have hfit := packetLen_le_of_frCheckFull h
  have hle := s.footerStart_le s.cfgRtp
  exact hs.store _ _ (by simp; omega)

/-- What SRTCP_PROTECT stores: payload, trailer word, MKI and tag all end in the buffer (R230). -/
theorem legal_srtcpProtected (h : firstRaised (srtcpProtectChecks Config.params s) = none) :
    (s.srtcpProtected Config.params).pkt.Legal := by
  have hfit := packetLen_le_of_frCheckFull h
  have hroom := not_of_firstRaised_none (p := Config.params.pktCap - s.packetLen < 4 + s.cfgRtcp.m + s.cfgRtcp.t)
    (c := .insufficientBufferSpace) h (by simp [srtcpProtectChecks])
  have hlen := not_of_firstRaised_none (p := s.packetLen < 8) (c := .badParameter) h (by simp [srtcpProtectChecks])
  refine Memory.Legal.store (.store (.store (.store hs _ _ ?_) _ _ ?_) _ _ ?_) _ _ ?_ <;> simp [State.srtcpTag] <;> omega

/-- What SRTCP_UNPROTECT stores: the payload, when the received E is 1 (R231). -/
theorem legal_srtcpUnprotected (h : firstRaised (srtcpUnprotectChecks Config.params s) = none) :
    (s.srtcpUnprotected Config.params).pkt.Legal := by
  have hfit := packetLen_le_of_frCheckFull h
  have hle := s.footerStart_le s.cfgRtcp
  have hlen := not_of_firstRaised_none (p := s.packetLen < 12 + s.cfgRtcp.m + s.cfgRtcp.t) (c := .badParameter) h
    (by simp [srtcpUnprotectChecks, State.srtcpTooShort])
  show (s.srtcpClear Config.params).Legal
  unfold State.srtcpClear
  split
  · exact hs.store _ _ (by simp [State.footerStart] at *; omega)
  · exact hs

/-- A command that passes its checks stores inside the buffer (R52, R86). -/
theorem legal_effectOf {i : Instr} (h : firstRaised (checksOf Config.params i s) = none) :
    (s.apply (effectOf Config.params i s)).pkt.Legal := by
  cases i with
  | cmXor dir cls =>
    have hr := not_of_firstRaised_none (p := Config.params.pktCap < s.boff.toNat + s.blen.toNat) (c := .badParameter) h
      (by simp [checksOf, cmXorChecks])
    exact hs.store _ _ (by simp; omega)
  | f8Xor dir cls =>
    have hr := not_of_firstRaised_none (p := Config.params.pktCap < s.boff.toNat + s.blen.toNat) (c := .badParameter) h
      (by simp [checksOf])
    exact hs.store _ _ (by simp; omega)
  | kdfRtp => exact legal_kdfEffect hs (length_kdf ..) h
  | kdfRtcp => exact legal_kdfEffect hs (length_kdf ..) h
  | srtpProtect => exact legal_srtpProtected hs h
  | srtpUnprotect => exact legal_srtpUnprotected hs h
  | srtcpProtect => exact legal_srtcpProtected hs h
  | srtcpUnprotect => exact legal_srtcpUnprotected hs h
  | _ => simpa only [effectOf, State.apply] using hs

end

/-! Every event keeps the invariant. -/

theorem inv_exec {i : Instr} {s t : State} (hs : Inv s) (h : exec i s = .next t) : Inv t := by
  rcases exec_cases h with ⟨c, hc, rfl⟩ | ⟨hc, rfl⟩
  · exact inv_complete (checksOf_produced _ _ _ _ (firstRaised_mem hc)) hs.legal
  · exact inv_complete rfl (legal_effectOf hs.legal hc)

theorem inv_engineTurn {s t : State} (hs : Inv s) (h : engineTurn s = .next t) : Inv t := by
  unfold engineTurn at h
  split at h
  · cases h; exact hs
  · split at h
    · exact inv_exec hs h
    · cases h; exact inv_complete rfl hs.legal

theorem inv_hostRead {off : Nat} {s t : State} (hs : Inv s) (h : hostRead off s = .next t) : Inv t := by
  obtain ⟨w, d, hr⟩ := hostRead_cases off s
  rw [hr] at h
  cases h
  exact hs.congr rfl rfl rfl rfl rfl hs.legal

theorem inv_softReset {s : State} (hs : Inv s) : Inv s.softReset where
  busyMode := by simp [State.reset, Status.zero]
  cmdPending := by simp [State.reset]
  canonical := hs.canonical
  inBuffer := hs.inBuffer
  codeProduced := rfl

theorem inv_hardReset (s : State) (ram : Ram) : Inv (s.hardReset Config.params ram) := by
  have hpkt : (Memory.store [] 0 (ram.pkt.take Config.params.pktCap)).Legal :=
    Memory.Legal.store ⟨rfl, rfl⟩ _ _ (by simp)
  exact
    { busyMode := by simp [State.reset, Status.zero]
      cmdPending := by simp [State.reset]
      canonical := hpkt.canonical
      inBuffer := hpkt.inBuffer
      codeProduced := rfl }

theorem inv_accept {s : State} (hs : Inv s) (w : Word) : Inv (s.accept w) where
  busyMode := by simp
  cmdPending := by simp
  canonical := hs.canonical
  inBuffer := hs.inBuffer
  codeProduced := hs.codeProduced

/-- Only the offsets from 0x1000 on select PKT (R31). -/
theorem targetOf_pkt {off k : Nat} (h : targetOf off = .pkt k) : 0x1000 ≤ off ∧ k = off - 0x1000 := by
  unfold targetOf at h
  split at h
  · next hoff => exact ⟨hoff, (Target.pkt.inj h).symm⟩
  · split at h
    · rcases windowAt_cases windowRows off with hw | ⟨n, j, hw⟩ <;> rw [hw] at h <;> cases h
    · unfold registerAt at h
      split at h <;> cases h

/-- A word of PKT that the map holds lies in the buffer with all its bytes: PKT_CAP is a multiple of 4 (R7, R85). -/
theorem pkt_word_in_buffer {off k : Nat} (ha : AlignedInMap off) (ht : targetOf off = .pkt k) :
    k + 4 ≤ Config.params.pktCap := by
  obtain ⟨hoff, hk⟩ := targetOf_pkt ht
  have hcap : Config.params.pktCap = 4 * Config.pktCapExtraWords.val + 64 := rfl
  obtain ⟨h4, hmap⟩ := ha
  omega

theorem inv_writeTarget {s : State} (hs : Inv s) (t : Target) (v : Word) (hk : ∀ k, t = .pkt k → k + 4 ≤ Config.params.pktCap) :
    Inv (s.writeTarget t v) := by
  cases t with
  | ctrl =>
    unfold State.writeTarget State.writeCtrl
    dsimp only
    split
    · exact inv_softReset hs
    · exact hs.congr rfl rfl rfl rfl rfl hs.legal
  | cmd => exact inv_accept hs v
  | window n k => cases n <;> exact hs.congr rfl rfl rfl rfl rfl hs.legal
  | pkt k => exact hs.congr rfl rfl rfl rfl rfl (hs.legal.store _ _ (by simpa [busBytes] using hk k rfl))
  | _ => exact hs.congr rfl rfl rfl rfl rfl hs.legal

theorem inv_hostWrite {off : Nat} {v : Word} {s t : State} (hs : Inv s) (h : hostWrite off v s = .next t) : Inv t := by
  rcases hostWrite_cases off v s with hw | ⟨-, -, hw⟩ | ⟨ha, -, hw⟩ <;> rw [hw] at h <;> cases h
  · exact hs
  · exact hs.congr rfl rfl rfl rfl rfl hs.legal
  · exact inv_writeTarget hs _ v fun k hk => pkt_word_in_buffer ha hk

theorem inv_runEvent {e : Event} {s t : State} (hs : Inv s) (h : runEvent e s = .next t) : Inv t := by
  cases e with
  | hostRead off => exact inv_hostRead hs h
  | hostWrite off w => exact inv_hostWrite hs h
  | hardReset ram => cases h; exact inv_hardReset s ram
  | engineTurn => exact inv_engineTurn hs h

/-- Settles O11: taking an event off the schedule changes nothing the invariant looks at, and each event keeps it. -/
theorem everyStepKeepsTheInvariant : Obligations.EveryStepKeepsTheInvariant := by
  intro s t hs h
  have hpop : Inv s.popEvent := hs.congr rfl rfl rfl rfl rfl hs.legal
  exact inv_runEvent hpop h

end Sys2Proof.Machine

/-! PROOFS. What commands do not read (R40, R45, R49): a command's checks and effect are functions of its operands. -/

namespace Sys2Proof.Machine

/-- The states agree on every operand of the commands but IDX: of a key window the bytes below its length (R102). IVPREG,
RX_MKI and the result registers are no operands. -/
structure SameOperands (s' s : State) : Prop where
  pkt : s'.pkt = s.pkt := by rfl
  pktLen : s'.pktLen = s.pktLen := by rfl
  boff : s'.boff = s.boff := by rfl
  blen : s'.blen = s.blen := by rfl
  kdr : s'.kdr = s.kdr := by rfl
  cfgRtp : s'.cfgRtp = s.cfgRtp := by rfl
  cfgRtcp : s'.cfgRtcp = s.cfgRtcp := by rfl
  mkeyLen : s'.mkeyLen = s.mkeyLen := by rfl
  msaltLen : s'.msaltLen = s.msaltLen := by rfl
  ekeyLen : s'.ekeyLen = s.ekeyLen := by rfl
  akeyLen : s'.akeyLen = s.akeyLen := by rfl
  saltLen : s'.saltLen = s.saltLen := by rfl
  mki : s'.mki = s.mki := by rfl
  ivreg : s'.ivreg = s.ivreg := by rfl
  mkeyBytes : s'.mkeyBytes = s.mkeyBytes := by rfl
  msaltBytes : s'.msaltBytes = s.msaltBytes := by rfl
  ekeyBytes : s'.ekeyBytes = s.ekeyBytes := by rfl
  akeyBytes : s'.akeyBytes = s.akeyBytes := by rfl
  saltBytes : s'.saltBytes = s.saltBytes := by rfl

/-- The part of IDX that a command takes, as a number (R40, R102). -/
def indexRead (i : Instr) (s : State) : Nat :=
  match i with
  | .cmIvRtp | .kdfRtp _ _ _ => s.idx.toNat
  | .f8IvRtp | .srtpProtect | .srtpUnprotect | .srtpParse => s.roc.toNat
  | .cmIvRtcp | .kdfRtcp _ _ _ | .srtcpProtect => s.index31.toNat
  | .f8IvRtcp => s.idxLo.toNat
  | .nop | .cmXor _ _ | .f8IvPrime _ _ | .f8Xor _ _ | .srtcpUnprotect | .srtcpParse => 0

namespace SameOperands
variable {s' s : State} (h : SameOperands s' s) (P : Params)
include h

theorem packetLen : s'.packetLen = s.packetLen := by simp only [State.packetLen, h.pktLen]

theorem footerStart (c : Cfg) : s'.footerStart c = s.footerStart c := by simp only [State.footerStart, h.packetLen]

theorem rtpSsrc : s'.rtpSsrc = s.rtpSsrc := by simp only [State.rtpSsrc, h.pkt]

theorem rtcpSsrc : s'.rtcpSsrc = s.rtcpSsrc := by simp only [State.rtcpSsrc, h.pkt]

theorem rtpHeader : s'.rtpHeader = s.rtpHeader := by simp only [State.rtpHeader, h.pkt]

theorem rtcpHeader : s'.rtcpHeader = s.rtcpHeader := by simp only [State.rtcpHeader, h.pkt]

theorem rtpIndex (hroc : s'.roc = s.roc) : s'.rtpIndex = s.rtpIndex := by
  simp only [State.rtpIndex, State.rtpSeq, hroc, h.pkt]

theorem ivPrime (dir : Dir) (cls : Cls) : s'.ivPrime P dir cls = s.ivPrime P dir cls := by
  simp only [State.ivPrime, h.ivreg, h.ekeyBytes, h.saltBytes]

theorem derived (cls : Cls) (dir : Dir) (label : Byte) (index : Nat) (w : RWidth) :
    s'.derived P cls dir label index w = s.derived P cls dir label index w := by
  simp only [State.derived, h.blen, h.mkeyBytes, h.msaltBytes, h.kdr]

theorem srtpXform (hroc : s'.roc = s.roc) (dir : Dir) (data : List Byte) : s'.srtpXform P dir data = s.srtpXform P dir data := by
  simp only [State.srtpXform, h.cfgRtp, h.ekeyBytes, h.saltBytes, h.rtpSsrc, h.rtpIndex hroc, h.rtpHeader]

theorem srtcpXform (dir : Dir) (i31 : BitVec 31) (e : Bool) (data : List Byte) :
    s'.srtcpXform P dir i31 e data = s.srtcpXform P dir i31 e data := by
  simp only [State.srtcpXform, h.cfgRtcp, h.ekeyBytes, h.saltBytes, h.rtcpSsrc, h.rtcpHeader]

theorem srtcpTrailerOut (hidx : s'.index31 = s.index31) : s'.srtcpTrailerOut = s.srtcpTrailerOut := by
  simp only [State.srtcpTrailerOut, State.srtcpE, hidx, h.cfgRtcp]

theorem srtcpTrailerIn : s'.srtcpTrailerIn = s.srtcpTrailerIn := by
  simp only [State.srtcpTrailerIn, h.pkt, h.footerStart, h.cfgRtcp]

theorem srtpProtectedBody (hroc : s'.roc = s.roc) (n : Nat) : s'.srtpProtectedBody P n = s.srtpProtectedBody P n := by
  simp only [State.srtpProtectedBody, h.pkt, h.srtpXform P hroc, h.packetLen, h.mki, h.cfgRtp]

theorem srtcpProtectedBody (hidx : s'.index31 = s.index31) : s'.srtcpProtectedBody P = s.srtcpProtectedBody P := by
  simp only [State.srtcpProtectedBody, State.srtcpE, h.pkt, h.srtcpXform P, h.packetLen, h.mki, h.cfgRtcp, hidx,
    h.srtcpTrailerOut hidx]

theorem srtpTag (hroc : s'.roc = s.roc) (n : Nat) : s'.srtpTag P n = s.srtpTag P n := by
  simp only [State.srtpTag, h.cfgRtp, h.akeyBytes, h.srtpProtectedBody P hroc, h.packetLen, hroc]

theorem srtcpTag (hidx : s'.index31 = s.index31) : s'.srtcpTag P = s.srtcpTag P := by
  simp only [State.srtcpTag, h.cfgRtcp, h.akeyBytes, h.srtcpProtectedBody P hidx, h.packetLen]

theorem srtcpEIn : s'.srtcpEIn = s.srtcpEIn := by simp only [State.srtcpEIn, h.srtcpTrailerIn]

theorem srtcpIndexIn : s'.srtcpIndexIn = s.srtcpIndexIn := by simp only [State.srtcpIndexIn, h.srtcpTrailerIn]

theorem srtcpClear : s'.srtcpClear P = s.srtcpClear P := by
  rw [State.srtcpClear, State.srtcpClear, h.srtcpEIn, h.srtcpIndexIn, h.pkt, h.cfgRtcp, h.footerStart, h.srtcpXform P]

theorem frCheckFull (c : Cfg) : frCheckFull P s' c = frCheckFull P s c := by
  simp only [Machine.frCheckFull, h.ekeyLen, h.saltLen, h.akeyLen, h.packetLen]

theorem frCheckParse (c : Cfg) : frCheckParse P s' c = frCheckParse P s c := by
  simp only [Machine.frCheckParse, h.packetLen]

theorem tagMismatch (c : Cfg) (msg : List Byte) : tagMismatch P s' c msg = tagMismatch P s c msg := by
  simp only [Machine.tagMismatch, h.akeyBytes, h.pkt, h.footerStart]

theorem kdfDestChecks (dest : BitVec 3) : kdfDestChecks P s' dest = kdfDestChecks P s dest := by
  simp only [Machine.kdfDestChecks, kdfChecks, kdfBadLength, h.mkeyLen, h.msaltLen, h.kdr, h.boff, h.blen]

/-- A command's checks look at its operands only. -/
theorem checksOf {i : Instr} (hi : indexRead i s' = indexRead i s) : checksOf P i s' = checksOf P i s := by
  cases i with
  | nop => rfl
  | cmIvRtp | cmIvRtcp => simp only [Machine.checksOf, cmIvChecks, h.saltLen, h.packetLen]
  | cmXor => simp only [Machine.checksOf, cmXorChecks, h.ekeyLen, h.boff, h.blen]
  | kdfRtp | kdfRtcp => exact h.kdfDestChecks P _
  | f8IvRtp | f8IvRtcp => simp only [Machine.checksOf, f8IvChecks, h.packetLen]
  | f8IvPrime | f8Xor => simp only [Machine.checksOf, f8KeyChecks, h.ekeyLen, h.saltLen, h.boff, h.blen]
  | srtpProtect => simp only [Machine.checksOf, srtpProtectChecks, h.frCheckFull, h.packetLen, h.cfgRtp, h.pkt]
  | srtpUnprotect =>
    have hroc : s'.roc = s.roc := BitVec.eq_of_toNat_eq hi
    simp only [Machine.checksOf, srtpUnprotectChecks, State.srtpTooShort, h.frCheckFull, h.packetLen, h.cfgRtp, h.pkt,
      h.footerStart, h.tagMismatch, hroc]
  | srtpParse =>
    simp only [Machine.checksOf, srtpParseChecks, State.srtpTooShort, h.frCheckParse, h.packetLen, h.cfgRtp, h.pkt, h.footerStart]
  | srtcpProtect => simp only [Machine.checksOf, srtcpProtectChecks, h.frCheckFull, h.packetLen, h.cfgRtcp]
  | srtcpUnprotect =>
    simp only [Machine.checksOf, srtcpUnprotectChecks, State.srtcpTooShort, h.srtcpEIn, h.frCheckFull,
      h.packetLen, h.cfgRtcp, h.pkt, h.footerStart, h.tagMismatch]
  | srtcpParse => simp only [Machine.checksOf, srtcpParseChecks, State.srtcpTooShort, h.frCheckParse, h.packetLen, h.cfgRtcp]

/-- A command's effect is computed from its operands only. -/
theorem effectOf {i : Instr} (hi : indexRead i s' = indexRead i s) : effectOf P i s' = effectOf P i s := by
  cases i with
  | nop => rfl
  | cmIvRtp =>
    have hidx : s'.idx = s.idx := BitVec.eq_of_toNat_eq hi
    simp only [Machine.effectOf, h.saltBytes, h.rtpSsrc, hidx]
  | cmIvRtcp =>
    have hidx : s'.index31 = s.index31 := BitVec.eq_of_toNat_eq hi
    simp only [Machine.effectOf, h.saltBytes, h.rtcpSsrc, hidx]
  | cmXor => simp only [Machine.effectOf, h.pkt, h.boff, h.blen, h.ekeyBytes, h.ivreg]
  | kdfRtp =>
    have hidx : s'.idx.toNat = s.idx.toNat := hi
    simp only [Machine.effectOf, h.derived, hidx]
  | kdfRtcp =>
    have hidx : s'.index31.toNat = s.index31.toNat := hi
    simp only [Machine.effectOf, h.derived, hidx]
  | f8IvRtp =>
    have hroc : s'.roc = s.roc := BitVec.eq_of_toNat_eq hi
    simp only [Machine.effectOf, h.rtpHeader, hroc]
  | f8IvRtcp =>
    have hlo : s'.idxLo = s.idxLo := BitVec.eq_of_toNat_eq hi
    simp only [Machine.effectOf, State.idxE, State.index31, h.rtcpHeader, hlo]
  | f8IvPrime => simp only [Machine.effectOf, h.ivPrime]
  | f8Xor => simp only [Machine.effectOf, h.ivPrime, h.pkt, h.boff, h.blen, h.ekeyBytes]
  | srtpProtect =>
    have hroc : s'.roc = s.roc := BitVec.eq_of_toNat_eq hi
    simp only [Machine.effectOf, State.srtpProtected, h.pkt, h.packetLen, h.cfgRtp, h.srtpProtectedBody P hroc, h.srtpTag P hroc,
      h.rtpIndex hroc]
  | srtpUnprotect =>
    have hroc : s'.roc = s.roc := BitVec.eq_of_toNat_eq hi
    simp only [Machine.effectOf, State.srtpUnprotected, State.srtpReport, h.pkt, h.cfgRtp, h.footerStart, h.srtpXform P hroc,
      h.rtpIndex hroc]
  | srtpParse =>
    have hroc : s'.roc = s.roc := BitVec.eq_of_toNat_eq hi
    simp only [Machine.effectOf, State.srtpReport, h.pkt, h.cfgRtp, h.footerStart, h.rtpIndex hroc]
  | srtcpProtect =>
    have hidx : s'.index31 = s.index31 := BitVec.eq_of_toNat_eq hi
    simp only [Machine.effectOf, State.srtcpProtected, h.packetLen, h.cfgRtcp, h.srtcpProtectedBody P hidx, h.srtcpTag P hidx,
      h.srtcpTrailerOut hidx]
  | srtcpUnprotect =>
    simp only [Machine.effectOf, State.srtcpUnprotected, State.srtcpReport, h.pkt, h.cfgRtcp, h.footerStart, h.srtcpTrailerIn,
      h.srtcpClear]
  | srtcpParse => simp only [Machine.effectOf, State.srtcpReport, h.pkt, h.cfgRtcp, h.footerStart, h.srtcpTrailerIn]

/-- From states with the same operands, a relation that every effect and every completion keeps is kept by every command. -/
theorem exec_related {i : Instr} {t : State} {R : State → State → Prop} (hi : indexRead i s' = indexRead i s)
    (hcomplete : ∀ a b c, R a b → R (a.complete c) (b.complete c)) (hs : R s' s) (happly : ∀ e, R (s'.apply e) (s.apply e))
    (ht : exec i s = .next t) : ∃ t', exec i s' = .next t' ∧ R t' t := by
  rw [exec_eq, h.checksOf _ hi, h.effectOf _ hi]
  rcases exec_cases ht with ⟨c, hc, rfl⟩ | ⟨hc, rfl⟩
  · exact ⟨_, runCommand_of_some hc, hcomplete _ _ _ hs⟩
  · exact ⟨_, runCommand_of_none hc, hcomplete _ _ _ (happly _)⟩

end SameOperands

end Sys2Proof.Machine

/-! PROOFS. Noninterference: states that differ outside a command's operands differ there alone after it (R40, R45, R49). -/

namespace Sys2Proof.Machine

/-! States that differ in one byte window. -/

/-- `a` with one byte window of `b`. -/
def State.withWindowOf (a b : State) : WindowName → State
  | .mkey => { a with mkey := b.mkey }
  | .msalt => { a with msalt := b.msalt }
  | .ekey => { a with ekey := b.ekey }
  | .salt => { a with salt := b.salt }
  | .akey => { a with akey := b.akey }
  | .mki => { a with mki := b.mki }
  | .rxMki => { a with rxMki := b.rxMki }
  | .ivreg => { a with ivreg := b.ivreg }
  | .ivpreg => { a with ivpreg := b.ivpreg }

theorem State.withWindowOf_complete (a b : State) (n : WindowName) (c : Code) :
    (a.complete c).withWindowOf (b.complete c) n = (a.withWindowOf b n).complete c := by
  cases n <;> rfl

theorem State.withWindowOf_apply (a b : State) (n : WindowName) (e : Effect) :
    (a.apply e).withWindowOf (b.apply e) n = (a.withWindowOf b n).apply e := by
  cases e with
  | derived dest out => cases n <;> cases dest <;> rfl
  | _ => cases n <;> rfl

theorem indexRead_congr (i : Instr) {s' s : State} (hlo : s'.idxLo = s.idxLo) (hhi : s'.idxHi = s.idxHi) :
    indexRead i s' = indexRead i s := by
  cases i <;> simp only [indexRead, State.roc, State.idx, State.index31, hlo, hhi]

/-- If only one window differs, and in no operand, then after the command only that window differs. -/
theorem SameOperands.exec_but_window {i : Instr} {s' s t : State} (h : SameOperands s' s) (n : WindowName)
    (hs : s'.withWindowOf s n = s) (hi : indexRead i s' = indexRead i s) (ht : exec i s = .next t) :
    ∃ t', exec i s' = .next t' ∧ t'.withWindowOf t n = t :=
  h.exec_related (R := fun a b => a.withWindowOf b n = b) hi
    (fun a b c hab => by rw [State.withWindowOf_complete, hab]) hs
    (fun e => by rw [State.withWindowOf_apply, hs]) ht

/-- Settles O54: IVPREG is no operand. -/
theorem noCommandReadsIvpreg : Obligations.NoCommandReadsIvpreg := by
  intro i s t v ht
  have hops : SameOperands { s with ivpreg := v } s := {}
  exact hops.exec_but_window .ivpreg rfl (indexRead_congr i rfl rfl) ht

/-- Settles O55: of a key window only the bytes below its length are an operand. -/
theorem bytesBeyondALengthTakeNoPart : Obligations.BytesBeyondALengthTakeNoPart := by
  intro i s t ht
  refine ⟨fun k hk => ?_, fun k hk => ?_, fun k hk => ?_, fun k hk => ?_, fun k hk => ?_⟩
  · have hops : SameOperands { s with mkey := k } s := { mkeyBytes := hk }
    exact hops.exec_but_window .mkey rfl (indexRead_congr i rfl rfl) ht
  · have hops : SameOperands { s with msalt := k } s := { msaltBytes := hk }
    exact hops.exec_but_window .msalt rfl (indexRead_congr i rfl rfl) ht
  · have hops : SameOperands { s with ekey := k } s := { ekeyBytes := hk }
    exact hops.exec_but_window .ekey rfl (indexRead_congr i rfl rfl) ht
  · have hops : SameOperands { s with akey := k } s := { akeyBytes := hk }
    exact hops.exec_but_window .akey rfl (indexRead_congr i rfl rfl) ht
  · have hops : SameOperands { s with salt := k } s := { saltBytes := hk }
    exact hops.exec_but_window .salt rfl (indexRead_congr i rfl rfl) ht

/-! States that differ in IDX. -/

/-- A command that takes the same part of another IDX does the same, and leaves that IDX. -/
theorem exec_withIdx {i : Instr} {s t : State} (lo : Word) (hi : Half)
    (hidx : indexRead i { s with idxLo := lo, idxHi := hi } = indexRead i s) (ht : exec i s = .next t) :
    exec i { s with idxLo := lo, idxHi := hi } = .next { t with idxLo := lo, idxHi := hi } := by
  have hops : SameOperands { s with idxLo := lo, idxHi := hi } s := {}
  have happly : ∀ e, { s with idxLo := lo, idxHi := hi : State }.apply e =
      { s.apply e with idxLo := lo, idxHi := hi } := by
    intro e
    cases e with
    | derived dest out => cases dest <;> rfl
    | _ => rfl
  obtain ⟨t', ht', rfl⟩ := hops.exec_related (R := fun a b => a = { b with idxLo := lo, idxHi := hi }) hidx
    (fun a b c hab => congrArg (·.complete c) hab) rfl happly ht
  exact ht'

/-- No command writes IDX. -/
theorem exec_idx {i : Instr} {s t : State} (ht : exec i s = .next t) : t.idxLo = s.idxLo ∧ t.idxHi = s.idxHi := by
  obtain ⟨⟨-, -, -, -, -, -, hlo, hhi, -⟩, -⟩ := onlyTheNamedCommandsWriteEachRegister i s t ht
  exact ⟨hlo, hhi⟩

/-- ROC is IDX_HI above IDX_LO[31:16] (R40, R102). -/
theorem State.roc_eq (s : State) : s.roc = (s.idxHi ++ s.idxLo.extractLsb' 16 16 : BitVec (16 + 16)) := by
  apply BitVec.eq_of_getLsbD_eq
  intro k hk
  simp only [State.roc, State.idx, BitVec.getLsbD_extractLsb', BitVec.getLsbD_append]
  by_cases h : k < 16
  · simp [h, hk, show 16 + k < 32 by omega]
  · simp [h, hk, show ¬ 16 + k < 32 by omega, show 16 + k - 32 = k - 16 by omega]

section
variable {i : Instr} {s' s : State}

theorem indexRead_of_roc (h : i.opcode ∈ [0x08, 0x10, 0x11, 0x12]) (hroc : s'.roc = s.roc) : indexRead i s' = indexRead i s := by
  cases i with
  | f8IvRtp | srtpProtect | srtpUnprotect | srtpParse => exact congrArg BitVec.toNat hroc
  | _ => simp [Instr.opcode] at h

theorem indexRead_of_idxLo (h : i.opcode ∈ [0x02, 0x05, 0x09, 0x14]) (hlo : s'.idxLo = s.idxLo) :
    indexRead i s' = indexRead i s := by
  cases i with
  | cmIvRtcp | kdfRtcp | f8IvRtcp | srtcpProtect => simp only [indexRead, State.index31, hlo]
  | _ => simp [Instr.opcode] at h

theorem indexRead_of_index31 (h : i.opcode ∈ [0x02, 0x05, 0x14]) (hidx : s'.index31 = s.index31) :
    indexRead i s' = indexRead i s := by
  cases i with
  | cmIvRtcp | kdfRtcp | srtcpProtect => exact congrArg BitVec.toNat hidx
  | _ => simp [Instr.opcode] at h

theorem indexRead_eq_zero (h : i.opcode ∈ [0x15, 0x16]) : indexRead i s = 0 := by
  cases i with
  | srtcpUnprotect | srtcpParse => rfl
  | _ => simp [Instr.opcode] at h

end

/-- Settles O56: each command takes the part of IDX that `indexRead` names. -/
theorem commandsIgnoreTheOtherIndexBits : Obligations.CommandsIgnoreTheOtherIndexBits := by
  intro i s t lo hi ht
  obtain ⟨hlo, hhi⟩ := exec_idx ht
  refine ⟨fun hop hbits => ?_, fun hop => ?_, fun hop => ?_, fun hop hbits => ?_⟩
  · have hroc : { s with idxLo := lo : State }.roc = s.roc := by simp only [State.roc_eq, hbits]
    rw [exec_withIdx lo s.idxHi (indexRead_of_roc hop hroc) ht, ← hhi]
  · rw [exec_withIdx s.idxLo hi (indexRead_of_idxLo hop rfl) ht, ← hlo]
  · exact exec_withIdx lo hi ((indexRead_eq_zero hop).trans (indexRead_eq_zero hop).symm) ht
  · rw [exec_withIdx lo s.idxHi (indexRead_of_index31 hop hbits) ht, ← hhi]

end Sys2Proof.Machine

/-! PROOFS. The registers on the bus: where each lies (R31), the places of its fields, and what is read back of a write. -/

namespace Sys2Proof.Machine

/-! Places of bit fields. -/

/-- The low bits of a word, widened again, are the word under their mask. -/
theorem setWidth_setWidth_eq_and {n : Nat} (k : Nat) (v : BitVec n) :
    (v.setWidth k).setWidth n = v &&& BitVec.ofNat n (2 ^ k - 1) := by
  apply BitVec.eq_of_getLsbD_eq
  intro j hj
  simp only [BitVec.getLsbD_setWidth, BitVec.getLsbD_and, BitVec.getLsbD_ofNat, Nat.testBit_two_pow_sub_one, hj, decide_true,
    Bool.true_and, Bool.and_comm]

/-- A field of one bit is the bit in its place. -/
theorem getLsbD_of_extractLsb' {n : Nat} {w : BitVec n} {k : Nat} {b : Bool} (h : w.extractLsb' k 1 = BitVec.ofBool b) :
    w.getLsbD k = b := by
  have := congrArg (BitVec.getLsbD · 0) h
  simpa using this

/-- STATUS is its fields one after another, most significant first (R35). -/
theorem Status.extractLsb'_word (t : Status) (start len : Nat) : t.word.extractLsb' start len =
    (0#8 ++ t.lastop ++ 0#4 ++ t.code.bits ++ 0#5 ++ BitVec.ofBool t.wbusy ++ BitVec.ofBool t.done ++ BitVec.ofBool t.busy :
      BitVec (8 + 8 + 4 + 4 + 5 + 1 + 1 + 1)).extractLsb' start len := rfl

/-- CFG_RTP and CFG_RTCP are their fields one after another, most significant first (R42). -/
theorem Cfg.extractLsb'_word (c : Cfg) (start len : Nat) : c.word.extractLsb' start len =
    (c.prefixLen ++ c.mkiLen ++ c.tagLen ++ c.auth ++ BitVec.ofBool c.mkiEn ++ 0#1 ++ c.enc :
      BitVec (8 + 8 + 8 + 4 + 1 + 1 + 2)).extractLsb' start len := rfl

/-- RES_FLAGS is its fields one after another, most significant first (R51). -/
theorem ResFlags.extractLsb'_word (f : ResFlags) (start len : Nat) : f.word.extractLsb' start len =
    (0#29 ++ BitVec.ofBool f.tagp ++ BitVec.ofBool f.mkip ++ BitVec.ofBool f.e : BitVec (29 + 1 + 1 + 1)).extractLsb' start len :=
  rfl

/-- The places of STATUS's fields; its other bits read 0 (R35). -/
theorem Status.word_places (t : Status) :
    t.word.getLsbD 0 = t.busy ∧ t.word.getLsbD 1 = t.done ∧ t.word.getLsbD 2 = t.wbusy ∧ t.word.extractLsb' 3 5 = 0 ∧
      t.word.extractLsb' 8 4 = t.code.bits ∧ t.word.extractLsb' 12 4 = 0 ∧ t.word.extractLsb' 16 8 = t.lastop ∧
      t.word.extractLsb' 24 8 = 0 := by
  refine ⟨getLsbD_of_extractLsb' ?_, getLsbD_of_extractLsb' ?_, getLsbD_of_extractLsb' ?_, ?_, ?_, ?_, ?_, ?_⟩ <;>
    rw [Status.extractLsb'_word] <;>
    simp (disch := decide) only [BitVec.extractLsb'_append_eq_of_le, BitVec.extractLsb'_append_eq_of_add_le, Nat.reduceSub,
      BitVec.extractLsb'_eq_self, BitVec.extractLsb'_zero, BitVec.ofNat_eq_ofNat]

/-- The places of the fields of CFG_RTP and CFG_RTCP; bit 2 reads 0 (R42). -/
theorem Cfg.word_places (c : Cfg) :
    c.word.extractLsb' 0 2 = c.enc ∧ c.word.getLsbD 2 = false ∧ c.word.getLsbD 3 = c.mkiEn ∧ c.word.extractLsb' 4 4 = c.auth ∧
      c.word.extractLsb' 8 8 = c.tagLen ∧ c.word.extractLsb' 16 8 = c.mkiLen ∧ c.word.extractLsb' 24 8 = c.prefixLen := by
  refine ⟨?_, getLsbD_of_extractLsb' ?_, getLsbD_of_extractLsb' ?_, ?_, ?_, ?_, ?_⟩ <;>
    rw [Cfg.extractLsb'_word] <;>
    simp (disch := decide) only [BitVec.extractLsb'_append_eq_of_le, BitVec.extractLsb'_append_eq_of_add_le, Nat.reduceSub,
      BitVec.extractLsb'_eq_self, BitVec.extractLsb'_zero, BitVec.ofBool_false, BitVec.ofNat_eq_ofNat]

/-- The places of RES_FLAGS's fields; its other bits read 0 (R51). -/
theorem ResFlags.word_places (f : ResFlags) :
    f.word.getLsbD 0 = f.e ∧ f.word.getLsbD 1 = f.mkip ∧ f.word.getLsbD 2 = f.tagp ∧ f.word.extractLsb' 3 29 = 0 := by
  refine ⟨getLsbD_of_extractLsb' ?_, getLsbD_of_extractLsb' ?_, getLsbD_of_extractLsb' ?_, ?_⟩ <;>
    rw [ResFlags.extractLsb'_word] <;>
    simp (disch := decide) only [BitVec.extractLsb'_append_eq_of_le, BitVec.extractLsb'_append_eq_of_add_le, Nat.reduceSub,
      BitVec.extractLsb'_eq_self, BitVec.extractLsb'_zero, BitVec.ofNat_eq_ofNat]

theorem ctrlWord_eq (ie : Bool) : ctrlWord ie = if ie then 1 else 0 := by cases ie <;> rfl

/-- What is read back of a write to CFG_RTP or CFG_RTCP: all but bit 2 (R42). -/
theorem Cfg.word_ofWord (v : Word) : (Cfg.ofWord v).word = v &&& 0xFFFFFFFB := by
  apply BitVec.eq_of_getLsbD_eq
  intro j hj
  have hbit : (Cfg.ofWord v).word.getLsbD j = ((Cfg.ofWord v).word.extractLsb' j 1).getLsbD 0 := by simp
  rw [hbit, Cfg.extractLsb'_word, BitVec.getLsbD_extractLsb']
  simp only [BitVec.getLsbD_append, Cfg.ofWord]
  interval_cases j <;> simp

/-! What a host access to a register does. -/

theorem selects_of_register {off : Nat} (h : off % 4 = 0 ∧ off < 0x1000) : selects Config.params off = true :=
  (selects_iff off).2 ⟨h.1, .inl h.2⟩

section
variable {off : Nat} {t : Target} {s : State} (hoff : off % 4 = 0 ∧ off < 0x1000) (ht : targetOf off = t)
  (hb : s.status.busy = false)
include hoff ht hb

theorem hostRead_register : hostRead off s = .next { s with readData := s.readTarget t } := by
  rw [hostRead_idle ⟨hoff.1, .inl hoff.2⟩ hb, ht]

theorem hostWrite_register (v : Word) : hostWrite off v s = .next (s.writeTarget t v) := by
  rw [hostWrite_idle ⟨hoff.1, .inl hoff.2⟩ v hb, ht]

end

/-- STATUS reads the same whether the engine is busy or not (R35, R88). -/
theorem hostRead_status (s : State) : hostRead 0x00C s = .next { s with readData := s.status.word } := by
  have hsel := selects_of_register (off := 0x00C) (by decide)
  have hread : (targetOf 0x00C).readableWhileBusy = true := rfl
  rw [hostRead, hostReadWith, hsel, hread, Bool.not_true, Bool.and_false]
  rfl

/-- A write to STATUS acknowledges, whether the engine is busy or not (R35, R261). -/
theorem hostWrite_status (v : Word) (s : State) : hostWrite 0x00C v s = .next (s.writeStatus v) := by
  have hsel := selects_of_register (off := 0x00C) (by decide)
  have ht : targetOf 0x00C = .status := rfl
  simp [hostWrite, hostWriteWith, hsel, ht, State.writeTarget]

/-- While BUSY = 1 a write to any other word of the map is ignored and sets WBUSY (R88). -/
theorem hostWrite_busy {off : Nat} (ha : AlignedInMap off) (h : off ≠ 0x00C) (v : Word) {s : State} (hb : s.status.busy = true) :
    hostWrite off v s = .next { s with status := { s.status with wbusy := true } } := by
  have ht : targetOf off ≠ .status := fun ht => h ((targetOf_status_iff off).1 ht)
  rw [← selects_iff] at ha
  simp [hostWrite, hostWriteWith, ha, hb, ht]

/-- A register that keeps some bits of what is written gives them back. -/
theorem register_readback {off : Nat} {t : Target} {s : State} {v w : Word} (hoff : off % 4 = 0 ∧ off < 0x1000)
    (ht : targetOf off = t) (hb : s.status.busy = false) (hpkt : (s.writeTarget t v).pkt = s.pkt)
    (hstatus : (s.writeTarget t v).status = s.status) (hread : (s.writeTarget t v).readTarget t = w) :
    ∃ s', hostWrite off v s = .next s' ∧ s'.pkt = s.pkt ∧ s'.status = s.status ∧
      hostRead off s' = .next { s' with readData := w } := by
  refine ⟨_, hostWrite_register hoff ht hb v, hpkt, hstatus, ?_⟩
  rw [hostRead_register hoff ht (hstatus ▸ hb), hread]

theorem windowAt_eq_unmapped {rows : List WindowRow} {off : Nat} (h : ∀ r ∈ rows, off < r.base ∨ r.base + r.size ≤ off) :
    windowAt rows off = .unmapped := by
  induction rows with
  | nil => rfl
  | cons r rs ih =>
    have hr := h r List.mem_cons_self
    rw [windowAt, if_neg (by omega)]
    exact ih fun r' hr' => h r' (List.mem_cons_of_mem _ hr')

/-- The offsets that the map leaves out, between the registers and between the windows (R31). -/
theorem targetOf_unmapped {off : Nat} (h : (0x048 ≤ off ∧ off < 0x060) ∨ (0x07C ≤ off ∧ off < 0x100) ∨
    (0x130 ≤ off ∧ off < 0x140) ∨ (0x170 ≤ off ∧ off < 0x180) ∨ (0x200 ≤ off ∧ off < 0x1000)) : targetOf off = .unmapped := by
  unfold targetOf
  rw [if_neg (by omega)]
  split
  · apply windowAt_eq_unmapped
    simp only [windowRows, List.forall_mem_cons, List.not_mem_nil, false_implies, implies_true, and_true]
    omega
  · unfold registerAt
    split <;> simp at h ⊢

/-- Settles O47: STATUS is read and acknowledged whatever BUSY is, and its word has its fields in their places. -/
theorem statusFieldsAndAcknowledgement : Obligations.StatusFieldsAndAcknowledgement := by
  intro s v
  obtain ⟨hbusy, hdone, hwbusy, hlow, hcode, hmid, hlastop, hhigh⟩ := s.status.word_places
  exact ⟨hostRead_status s, hbusy, hdone, hwbusy, hlow, hcode, hmid, hlastop, hhigh, hostWrite_status v s⟩

/-- Settles O48: the accepted write is `State.accept`, an ignored one sets WBUSY. -/
theorem commandWriteIsAcceptedWhenIdle : Obligations.CommandWriteIsAcceptedWhenIdle := by
  intro s w
  refine ⟨fun hb => ?_, fun hb => ?_, fun hb => ?_⟩
  · exact hostWrite_register (by decide) rfl hb w
  · exact hostWrite_busy ⟨rfl, .inl (by decide)⟩ (by decide) w hb
  · exact hostRead_register (by decide) rfl hb

/-- Settles O52: each offset's target says what is stored, and a stored field widened again is the word under its mask. -/
theorem registersKeepTheirUsedBits : Obligations.RegistersKeepTheirUsedBits := by
  intro s v hb
  have h16 : (v.setWidth 16).setWidth 32 = v &&& 0x0000FFFF := setWidth_setWidth_eq_and 16 v
  have h8 : (v.setWidth 8).setWidth 32 = v &&& 0x000000FF := setWidth_setWidth_eq_and 8 v
  have h32 : v = v &&& 0xFFFFFFFF := BitVec.and_allOnes.symm
  have hcfg := Cfg.word_ofWord v
  simp only [List.forall_mem_cons, List.not_mem_nil, false_implies, implies_true, and_true]
  refine ⟨⟨?_, ?_, ?_, ?_, ?_, ?_, ?_, ?_, ?_, ?_, ?_, ?_, ?_⟩, ⟨?_, ?_, ?_, ?_, ?_, ?_, ?_, ?_, ?_, ?_, ?_⟩,
    ⟨?_, ?_, ?_, ?_, ?_, ?_, ?_, ?_, ?_⟩, fun off h4 hoff => ?_⟩
  · exact register_readback (by decide) rfl hb rfl rfl h16
  · exact register_readback (by decide) rfl hb rfl rfl h16
  · exact register_readback (by decide) rfl hb rfl rfl h16
  · exact register_readback (by decide) rfl hb rfl rfl h32
  · exact register_readback (by decide) rfl hb rfl rfl h16
  · exact register_readback (by decide) rfl hb rfl rfl h32
  · exact register_readback (by decide) rfl hb rfl rfl hcfg
  · exact register_readback (by decide) rfl hb rfl rfl hcfg
  -- the five length registers
  iterate 5 exact register_readback (by decide) rfl hb rfl rfl h8
  -- eleven frames of a write, nine registers that ignore it
  iterate 20 exact hostWrite_register (by decide) rfl hb v
  have hmap : off % 4 = 0 ∧ off < 0x1000 := by omega
  exact ⟨hostWrite_register hmap (targetOf_unmapped hoff) hb v, hostRead_register hmap (targetOf_unmapped hoff) hb⟩

/-- Settles O59: a write stores `Cfg.ofWord`, a read gives `Cfg.word`. -/
theorem configurationFieldsLieInTheirPlaces : Obligations.ConfigurationFieldsLieInTheirPlaces := by
  rintro s v c hb rfl
  refine ⟨hostWrite_register (by decide) rfl hb v, hostWrite_register (by decide) rfl hb v, ?_⟩
  simp only [List.forall_mem_cons, List.not_mem_nil, false_implies, implies_true, and_true]
  exact ⟨⟨_, hostRead_register (by decide) rfl hb, Cfg.word_places _⟩, ⟨_, hostRead_register (by decide) rfl hb, Cfg.word_places _⟩⟩

/-- Settles O60: each offset's target says what is read; a write to CTRL without SRST stores IE. -/
theorem controlAndResultsReadInTheirPlaces : Obligations.ControlAndResultsReadInTheirPlaces := by
  intro s v hb
  refine ⟨?_, ?_, fun hv => ?_, ?_, ?_, ?_, ?_, ?_, ?_, ?_, _, ?_, s.res.flags.word_places⟩
  case refine_3 =>
    rw [hostWrite_register (t := .ctrl) (by decide) rfl hb]
    simp only [State.writeTarget, State.writeCtrl, hv, Bool.false_eq_true, if_false]
  case refine_4 =>
    rw [← ctrlWord_eq]
    exact hostRead_register (by decide) rfl hb
  all_goals exact hostRead_register (by decide) rfl hb

/-! A command from the CMD write to the engine's turn. -/

/-- A step is the first event of the schedule, on the state that has the others still to come. -/
theorem step_of_schedule {s : State} {e : Event} {rest : List Event} (h : s.schedule = e :: rest) :
    step s = runEvent e { s with schedule := rest } := by
  simp only [step, State.nextEvent, State.popEvent, h, List.headD_cons, List.tail_cons]

/-- A busy engine's turn runs the pending word (R53, R105). -/
theorem engineTurn_of_decode {s : State} {i : Instr} (hm : s.mode = .busy) (hd : decode s.pending = .ok i) :
    engineTurn s = exec i s := by
  simp only [engineTurn, State.fetch, hm, hd]

/-- Settles O7: the three events of the schedule, one step each. -/
theorem writtenCommandRunsAtTheEnginesTurn : Obligations.WrittenCommandRunsAtTheEnginesTurn := by
  intro s w v off i rest hb hd ha hoff hs
  have hwrite : step s = .next ({ s with schedule := .hostWrite off v :: .engineTurn :: rest : State }.accept w) := by
    rw [step_of_schedule hs, runEvent, hostWrite_register (t := .cmd) (by decide) rfl]
    · rfl
    · exact hb
  refine ⟨_, _, hwrite, ?_, rfl, ?_⟩
  · rw [step_of_schedule (e := .hostWrite off v) (rest := .engineTurn :: rest) rfl, runEvent, hostWrite_busy ha hoff v]
    · rfl
    · rfl
  · rw [step_of_schedule (e := .engineTurn) (rest := rest) rfl, runEvent, engineTurn_of_decode]
    · rfl
    · exact hd

end Sys2Proof.Machine

/-! PROOFS. Host accesses by offset: what a read may change, which accesses select nothing, and BUSY = 1 (R81, R84, R85, R88). -/

namespace Sys2Proof.Machine

/-- What a read returns does not depend on the record of the last reply. -/
theorem State.readTarget_readData (s : State) (w : Word) (t : Target) : ({ s with readData := w } : State).readTarget t = s.readTarget t := by
  rw [← State.readTarget_block, ← State.readTarget_block s]
  rfl

/-- An idle block gives the same word again: what a read returns is not what it changes (R84). -/
theorem hostRead_repeat {off : Nat} {s t : State} (hb : s.status.busy = false) (h : hostRead off s = .next t) :
    hostRead off t = .next t := by
  by_cases ha : AlignedInMap off
  · rw [hostRead_idle ha hb] at h
    cases h
    refine (hostRead_idle ha ?_).trans ?_
    · exact hb
    · simp only [State.readTarget_readData]
  · rw [hostRead_of_not_selects ha] at h
    cases h
    rw [hostRead_of_not_selects ha]

/-- Settles O45: a read changes only the record of the reply, which is no part of the block. -/
theorem readsHaveNoSideEffect : Obligations.ReadsHaveNoSideEffect := by
  intro off s _
  obtain ⟨w, d, h⟩ := hostRead_cases off s
  exact ⟨_, h, rfl, rfl, fun hb => hostRead_repeat hb h⟩

/-- Settles O51: neither access selects a word of the map. -/
theorem misalignedAndBeyondTheMap : Obligations.MisalignedAndBeyondTheMap := by
  intro off v s hoff
  have ha : ¬ AlignedInMap off := by
    rintro ⟨h4, hmap⟩
    omega
  exact ⟨hostRead_of_not_selects ha s, hostWrite_of_not_selects ha v s⟩

/-- ID, VERSION and STATUS are at 0x000, 0x004 and 0x00C (R31, R88). -/
theorem readableWhileBusy_iff (off : Nat) :
    (targetOf off).readableWhileBusy = true ↔ off = 0x000 ∨ off = 0x004 ∨ off = 0x00C := by
  constructor
  · intro h
    have hne : ∀ t : Target, t.readableWhileBusy = false → targetOf off ≠ t := by
      rintro t ht rfl
      exact Bool.noConfusion (ht.symm.trans h)
    obtain ⟨-, hr⟩ := targetOf_register rfl (hne _ rfl) (fun _ _ => hne _ rfl) (fun _ => hne _ rfl)
    rw [← hr] at h
    unfold registerAt at h
    split at h <;> simp [Target.readableWhileBusy] at h ⊢
  · rintro (rfl | rfl | rfl) <;> rfl

/-- A read of ID, VERSION or STATUS returns its value, busy or not (R88). -/
theorem hostRead_readable {off : Nat} (ha : AlignedInMap off) (hr : (targetOf off).readableWhileBusy = true) (s : State) :
    hostRead off s = .next { s with readData := s.readTarget (targetOf off) } := by
  rw [← selects_iff] at ha
  simp [hostRead, hostReadWith, ha, hr]

/-- A read of any other offset of the map while BUSY = 1 draws a free value (R88, log 6). -/
theorem hostRead_busy {off : Nat} (ha : AlignedInMap off) (hr : ¬ (targetOf off).readableWhileBusy = true) {s : State}
    (hb : s.status.busy = true) :
    hostRead off s = .next { s with readData := Config.busyRead s.draws, draws := s.draws + 1 } := by
  rw [← selects_iff] at ha
  simp [hostRead, hostReadWith, ha, hb, hr]

/-- Settles O46: STATUS is written and the three readable registers are read as ever; the rest is R88's. -/
theorem accessesWhileBusy : Obligations.AccessesWhileBusy := by
  intro off v s ha hb
  refine ⟨hostWrite_status v s, fun hoff => hostWrite_busy ha hoff v hb, hostRead_status s, ?_, ?_, fun h0 h4 hC => ?_⟩
  · exact hostRead_readable ⟨rfl, .inl (by decide)⟩ rfl s
  · exact hostRead_readable ⟨rfl, .inl (by decide)⟩ rfl s
  · exact hostRead_busy ha (by simp [readableWhileBusy_iff, h0, h4, hC]) hb

end Sys2Proof.Machine

/-! PROOFS. The packing of bytes into bus words (R82), in PKT and in the byte windows, and where those lie (R31, R52). -/

namespace Sys2Proof.Machine

/-- Four bytes as a bus word, as a number. -/
theorem toNat_busWord (b₀ b₁ b₂ b₃ : Byte) : (busWord [b₀, b₁, b₂, b₃]).toNat =
    b₀.toNat * 2 ^ 24 + b₁.toNat * 2 ^ 16 + b₂.toNat * 2 ^ 8 + b₃.toNat := by
  have hlt : beRead [b₀, b₁, b₂, b₃] < 2 ^ 32 := by simpa using beRead_lt [b₀, b₁, b₂, b₃]
  rw [busWord, BitVec.toNat_ofNat, Nat.mod_eq_of_lt hlt]
  simp only [beRead, List.foldl_cons, List.foldl_nil]
  omega

/-- A bus word as its four bytes, most significant first. -/
theorem busBytes_eq (v : Word) : busBytes v = [v.extractLsb' 24 8, v.extractLsb' 16 8, v.extractLsb' 8 8, v.extractLsb' 0 8] := by
  have hbyte : ∀ i, BitVec.ofNat 8 (v.toNat / 256 ^ i) = v.extractLsb' (8 * i) 8 := by
    intro i
    apply BitVec.eq_of_toNat_eq
    rw [BitVec.toNat_ofNat, BitVec.extractLsb'_toNat, Nat.shiftRight_eq_div_pow, pow_mul]
    rfl
  simp only [busBytes, beBytes, hbyte]

/-- Four bytes of a byte string, one by one. -/
theorem slice_four {bs : List Byte} {a : Nat} (h : a + 4 ≤ bs.length) :
    slice bs a 4 = [bs.getD a 0, bs.getD (a + 1) 0, bs.getD (a + 2) 0, bs.getD (a + 3) 0] := by
  simp (disch := omega) only [slice, List.drop_eq_getElem_cons, List.take_succ_cons, List.take_zero, List.getD_eq_getElem]

/-- Settles O49: a word of PKT is loaded and stored as its four bytes. -/
theorem packetWordsAreBigEndian : Obligations.PacketWordsAreBigEndian := by
  intro s k v hk hwf hb
  have ha : AlignedInMap (0x1000 + 4 * k) := ⟨by omega, .inr (by omega)⟩
  have ht : targetOf (0x1000 + 4 * k) = .pkt (4 * k) := by simp [targetOf]
  have hin := Memory.read_store_inside hwf (4 * k) (busBytes v)
  have hout := Memory.read_store_outside s.pkt (4 * k) (busBytes v)
  refine ⟨⟨_, hostRead_idle ha hb, ?_⟩, _, hostWrite_idle ha v hb, ?_⟩
  · rw [ht]
    exact toNat_busWord ..
  · rw [ht]
    rw [busBytes_eq] at hin hout
    simp only [State.writeTarget, busBytes_eq]
    exact ⟨trivial, hin 0 (by simp), hin 1 (by simp), hin 2 (by simp), hin 3 (by simp), hout⟩

/-- An offset in a window selects that window, when the windows do not overlap. -/
theorem windowAt_of_mem {rows : List WindowRow} (hrows : rows.Pairwise fun r r' => r.base + r.size ≤ r'.base) {r : WindowRow}
    (hr : r ∈ rows) {off : Nat} (hoff : r.base ≤ off ∧ off < r.base + r.size) :
    windowAt rows off = .window r.name (off - r.base) := by
  induction rows with
  | nil => cases hr
  | cons r' rows ih =>
    obtain ⟨hfirst, hrest⟩ := List.pairwise_cons.1 hrows
    rcases List.mem_cons.1 hr with rfl | hmem
    · exact if_pos hoff
    · have := hfirst r hmem
      rw [windowAt, if_neg (by omega)]
      exact ih hrest hmem

/-- The windows lie between the registers and PKT, at word offsets (R31). -/
theorem windowRows_bounds : ∀ r ∈ windowRows, 0x100 ≤ r.base ∧ r.base + r.size ≤ 0x1000 ∧ r.base % 4 = 0 := by decide

theorem windowRows_disjoint : windowRows.Pairwise fun r r' => r.base + r.size ≤ r'.base := by decide

/-- A word of a window is an offset below PKT that selects that window at that word (R31). -/
theorem targetOf_windowRow {r : WindowRow} (hr : r ∈ windowRows) {k : Nat} (hk : 4 * k + 4 ≤ r.size) :
    ((r.base + 4 * k) % 4 = 0 ∧ r.base + 4 * k < 0x1000) ∧ targetOf (r.base + 4 * k) = .window r.name (4 * k) := by
  obtain ⟨hlow, hhigh, hbase⟩ := windowRows_bounds r hr
  refine ⟨by omega, ?_⟩
  rw [targetOf, if_neg (by omega), if_pos (by omega), windowAt_of_mem windowRows_disjoint hr (by omega), Nat.add_sub_cancel_left]

/-- Each window of the map holds as many bytes as its row says (R31). -/
theorem length_windowBytes (s : State) : ∀ r ∈ windowRows, (s.windowBytes r.name).length = r.size := by
  simp [windowRows, State.windowBytes]

/-- A word written into a writable window replaces its four bytes (R82). -/
theorem State.windowBytes_writeWindow_same {s : State} {w : WindowName} {k : Nat} (hrx : w ≠ .rxMki) (hivp : w ≠ .ivpreg)
    (hk : k + 4 ≤ (s.windowBytes w).length) (v : Word) :
    (s.writeWindow w k v).windowBytes w = putAt (s.windowBytes w) k (busBytes v) := by
  cases w
  case rxMki => exact absurd rfl hrx
  case ivpreg => exact absurd rfl hivp
  all_goals exact toList_putWindow _ _ _ (by simpa [State.windowBytes, busBytes] using hk)

/-- A window write keeps every other window. -/
theorem State.windowBytes_writeWindow_other (s : State) {w n : WindowName} (h : n ≠ w) (k : Nat) (v : Word) :
    (s.writeWindow w k v).windowBytes n = s.windowBytes n := by
  cases w <;> cases n <;> simp [State.writeWindow, State.windowBytes] at h ⊢

/-- A window write changes windows only, and no read-only one. -/
theorem State.writeWindow_frame (s : State) (w : WindowName) (k : Nat) (v : Word) : s.writeWindow w k v = { s with
    mkey := (s.writeWindow w k v).mkey
    msalt := (s.writeWindow w k v).msalt
    ekey := (s.writeWindow w k v).ekey
    salt := (s.writeWindow w k v).salt
    akey := (s.writeWindow w k v).akey
    mki := (s.writeWindow w k v).mki
    ivreg := (s.writeWindow w k v).ivreg } := by
  cases w <;> rfl

/-- Settles O50: a word of a row selects that row's window, which is read and written as its four bytes. -/
theorem windowWordsAreBigEndian : Obligations.WindowWordsAreBigEndian := by
  intro s r k v hr hk hb
  obtain ⟨hoff, ht⟩ := targetOf_windowRow hr hk
  have hlen : 4 * k + 4 ≤ (s.windowBytes r.name).length := by rw [length_windowBytes s r hr]; exact hk
  have hwrite := hostWrite_register hoff ht hb v
  refine ⟨rfl, ⟨_, hostRead_register hoff ht hb, rfl, ?_⟩, fun hrx hivp => ⟨_, hwrite, ?_, ?_, ?_⟩, fun hro => ?_⟩
  · rw [State.readTarget, slice_four hlen]
    exact toNat_busWord ..
  · have := State.windowBytes_writeWindow_same hrx hivp hlen v
    rwa [busBytes_eq] at this
  · exact fun n hn => State.windowBytes_writeWindow_other s hn (4 * k) v
  · exact State.writeWindow_frame s r.name (4 * k) v
  · rw [hwrite]
    rcases hro with h | h <;> rw [h] <;> rfl

end Sys2Proof.Machine

/-! PROOFS. The fields of a command word (R101): what packing puts in each, and that they make up the word. -/

namespace Sys2Proof

section
variable (dest : BitVec 3) (label : Byte) (cls dir : BitVec 1) (op : Byte)

/-- A command word is its fields one after another, most significant first (R101). -/
theorem extractLsb'_packCommand (start len : Nat) : (packCommand dest label cls dir op).extractLsb' start len =
    (0#5 ++ dest ++ label ++ 0#6 ++ cls ++ dir ++ op : BitVec (5 + 3 + 8 + 6 + 1 + 1 + 8)).extractLsb' start len := rfl

/-- Each field of a packed word is what was packed there; the reserved bits are 0 (R101). -/
@[simp] theorem packCommand_places : (packCommand dest label cls dir op).op = op ∧ (packCommand dest label cls dir op).dirBit = dir ∧
    (packCommand dest label cls dir op).clsBit = cls ∧ (packCommand dest label cls dir op).reservedLow = 0 ∧
    (packCommand dest label cls dir op).label = label ∧ (packCommand dest label cls dir op).dest = dest ∧
    (packCommand dest label cls dir op).reservedHigh = 0 := by
  refine ⟨?_, ?_, ?_, ?_, ?_, ?_, ?_⟩ <;>
    refine (extractLsb'_packCommand ..).trans ?_ <;>
    simp (disch := decide) only [BitVec.extractLsb'_append_eq_of_le, BitVec.extractLsb'_append_eq_of_add_le, Nat.reduceSub,
      BitVec.extractLsb'_eq_self, BitVec.extractLsb'_zero, BitVec.ofNat_eq_ofNat]

end

/-- Words with the same fields are the same word: the fields cover all 32 bits (R101). -/
theorem word_eq_of_fields {w v : Word} (hop : w.op = v.op) (hdir : w.dirBit = v.dirBit) (hcls : w.clsBit = v.clsBit)
    (hlow : w.reservedLow = v.reservedLow) (hlabel : w.label = v.label) (hdest : w.dest = v.dest)
    (hhigh : w.reservedHigh = v.reservedHigh) : w = v := by
  have place : ∀ {start len : Nat}, w.extractLsb' start len = v.extractLsb' start len →
      w.toNat / 2 ^ start % 2 ^ len = v.toNat / 2 ^ start % 2 ^ len := by
    intro start len h
    simpa only [BitVec.extractLsb'_toNat, Nat.shiftRight_eq_div_pow] using congrArg BitVec.toNat h
  have h0 := place hop
  have h8 := place hdir
  have h9 := place hcls
  have h10 := place hlow
  have h16 := place hlabel
  have h24 := place hdest
  have h27 := place hhigh
  apply BitVec.eq_of_toNat_eq
  omega

/-- A word whose reserved bits are 0 is packed from its own fields. -/
theorem packCommand_fields {w : Word} (hlow : w.reservedLow = 0) (hhigh : w.reservedHigh = 0) :
    packCommand w.dest w.label w.clsBit w.dirBit w.op = w := by
  obtain ⟨pop, pdir, pcls, plow, plabel, pdest, phigh⟩ := packCommand_places w.dest w.label w.clsBit w.dirBit w.op
  exact word_eq_of_fields pop pdir pcls (plow.trans hlow.symm) plabel pdest (phigh.trans hhigh.symm)

@[simp] theorem Dir.ofBit_bit (d : Dir) : Dir.ofBit d.bit = d := by cases d <;> rfl

@[simp] theorem Cls.ofBit_bit (c : Cls) : Cls.ofBit c.bit = c := by cases c <;> rfl

@[simp] theorem Dir.bit_ofBit (b : BitVec 1) : (Dir.ofBit b).bit = b := by revert b; decide

@[simp] theorem Cls.bit_ofBit (b : BitVec 1) : (Cls.ofBit b).bit = b := by revert b; decide

end Sys2Proof

/-! PROOFS. The decoder said once (R104, R105), and each command's one word. -/

namespace Sys2Proof.Machine

/-- What the decoder answers: a rejection for the reserved bits or for OP (R104 (a), (b)), or the rule of the opcode's shape,
which is plain, with DIR and CLS, or a key derivation, together with how the commands of that shape are encoded. -/
inductive DecodedBy (w : Word) : Except Illegal Instr → Prop where
  | reserved (h : ¬ (w.reservedLow = 0 ∧ w.reservedHigh = 0)) : DecodedBy w (.error .reservedBits)
  | unassigned (h : w.op ∉ plainOps ++ dirClsOps ++ kdfOps) : DecodedBy w (.error .unassignedOp)
  | plain (i : Instr) (hr : w.reservedLow = 0 ∧ w.reservedHigh = 0) (hop : w.op ∈ plainOps)
      (hi : i.wf = true ∧ encode i = packCommand 0 0 0 0 w.op) : DecodedBy w (decodePlain w i)
  | dirCls (mk : Dir → Cls → Instr) (hr : w.reservedLow = 0 ∧ w.reservedHigh = 0) (hop : w.op ∈ dirClsOps)
      (hi : ∀ dir cls, (mk dir cls).wf = true ∧ encode (mk dir cls) = packCommand 0 0 cls.bit dir.bit w.op) :
      DecodedBy w (decodeDirCls w mk)
  | kdf (mk : Dir → Byte → BitVec 3 → Instr) (hr : w.reservedLow = 0 ∧ w.reservedHigh = 0) (hop : w.op ∈ kdfOps)
      (hi : ∀ dir label dest, (mk dir label dest).wf = decide (dest.toNat < 4) ∧
        encode (mk dir label dest) = packCommand dest label 0 dir.bit w.op) : DecodedBy w (decodeKdf w mk)

/-- The decoder's branches, one for each row of R103. -/
theorem decodedBy_decode (w : Word) : DecodedBy w (decode w) := by
  unfold decode
  split
  next hr => exact .reserved (by tauto)
  next hr =>
    have hr : w.reservedLow = 0 ∧ w.reservedHigh = 0 := by tauto
    have known : ∀ {n : Nat}, w.op.toNat = n → w.op = BitVec.ofNat 8 n := by
      rintro n rfl
      simp
    split
    case h_4 h | h_9 h | h_10 h =>
      refine .dirCls _ hr ?_ fun dir cls => ?_ <;> rw [known h]
      · decide
      · exact ⟨rfl, rfl⟩
    case h_5 h | h_6 h =>
      refine .kdf _ hr ?_ fun dir label dest => ?_ <;> rw [known h]
      · decide
      · exact ⟨rfl, rfl⟩
    case h_17 =>
      refine .unassigned ?_
      simp only [plainOps, dirClsOps, kdfOps, List.cons_append, List.nil_append, List.mem_cons, List.not_mem_nil, or_false,
        ← BitVec.toNat_inj]
      tauto
    all_goals
      next h =>
        refine .plain _ hr ?_ ?_ <;> rw [known h]
        · decide
        · exact ⟨rfl, rfl⟩

/-! What the three rules accept (R104 (c), (d)). -/

theorem decodePlain_eq_ok_iff {w : Word} {i j : Instr} :
    decodePlain w i = .ok j ↔ (w.dirBit = 0 ∧ w.clsBit = 0 ∧ w.label = 0 ∧ w.dest = 0) ∧ i = j := by
  unfold decodePlain
  split_ifs <;> simp_all

theorem decodeDirCls_eq_ok_iff {w : Word} {mk : Dir → Cls → Instr} {j : Instr} :
    decodeDirCls w mk = .ok j ↔ (w.label = 0 ∧ w.dest = 0) ∧ mk (Dir.ofBit w.dirBit) (Cls.ofBit w.clsBit) = j := by
  unfold decodeDirCls
  split_ifs <;> simp_all

theorem decodeKdf_eq_ok_iff {w : Word} {mk : Dir → Byte → BitVec 3 → Instr} {j : Instr} :
    decodeKdf w mk = .ok j ↔ (w.clsBit = 0 ∧ w.dest.toNat < 4) ∧ mk (Dir.ofBit w.dirBit) w.label w.dest = j := by
  unfold decodeKdf
  split_ifs <;> simp_all

/-- Settles O2: each rule accepts only words that are packed from the command's fields. -/
theorem encodeOfDecodeIsTheWord : Obligations.EncodeOfDecodeIsTheWord := by
  intro w i h
  have hw := decodedBy_decode w
  generalize decode w = d at h hw
  cases hw with
  | reserved | unassigned => cases h
  | plain j hr hop hi =>
    obtain ⟨⟨hdir, hcls, hlabel, hdest⟩, rfl⟩ := decodePlain_eq_ok_iff.1 h
    refine ⟨hi.1, hi.2.trans ?_⟩
    simpa only [hdir, hcls, hlabel, hdest] using packCommand_fields hr.1 hr.2
  | dirCls mk hr hop hi =>
    obtain ⟨⟨hlabel, hdest⟩, rfl⟩ := decodeDirCls_eq_ok_iff.1 h
    refine ⟨(hi _ _).1, (hi _ _).2.trans ?_⟩
    simpa only [hlabel, hdest, Dir.bit_ofBit, Cls.bit_ofBit] using packCommand_fields hr.1 hr.2
  | kdf mk hr hop hi =>
    obtain ⟨⟨hcls, hdest⟩, rfl⟩ := decodeKdf_eq_ok_iff.1 h
    refine ⟨(hi _ _ _).1.trans (decide_eq_true hdest), (hi _ _ _).2.trans ?_⟩
    simpa only [hcls, Dir.bit_ofBit] using packCommand_fields hr.1 hr.2

/-- Settles O1: the decoder reads back each field that `packCommand` wrote, and takes the branch of the command's OP. -/
theorem decodeOfEncodeIsTheCommand : Obligations.DecodeOfEncodeIsTheCommand := by
  intro i hi
  cases i with
  | kdfRtp dir label dest | kdfRtcp dir label dest =>
    have hdest : dest.toNat < 4 := of_decide_eq_true hi
    simp [encode, decode, decodeKdf, Instr.opcode, hdest]
  | cmXor dir cls | f8IvPrime dir cls | f8Xor dir cls => simp [encode, decode, decodeDirCls, Instr.opcode]
  | _ => simp [encode, decode, decodePlain, Instr.opcode]

end Sys2Proof.Machine

/-! PROOFS. Legal words three ways (R104, R106): those that decode, those that select a row of the opcode table, and those that
are not illegal by their bits. -/

namespace Sys2Proof.Machine

/-! The fields as R104's bit ranges. -/

/-- DIR and CLS are bits 9:8. -/
theorem dirCls_eq_zero_iff (w : Word) : w.extractLsb' 8 2 = 0 ↔ w.dirBit = 0 ∧ w.clsBit = 0 := by
  simp only [Word.dirBit, Word.clsBit, ← BitVec.toNat_inj, BitVec.extractLsb'_toNat, Nat.shiftRight_eq_div_pow,
    BitVec.ofNat_eq_ofNat, BitVec.toNat_ofNat]
  omega

/-- LABEL and DEST are bits 26:16. -/
theorem labelDest_eq_zero_iff (w : Word) : w.extractLsb' 16 11 = 0 ↔ w.label = 0 ∧ w.dest = 0 := by
  simp only [Word.label, Word.dest, ← BitVec.toNat_inj, BitVec.extractLsb'_toNat, Nat.shiftRight_eq_div_pow,
    BitVec.ofNat_eq_ofNat, BitVec.toNat_ofNat]
  omega

/-- CLS is bit 9. -/
theorem clsBit_eq_zero_iff (w : Word) : w.clsBit = 0 ↔ w.getLsbD 9 = false := by
  have hbit : w.getLsbD 9 = w.clsBit.getLsbD 0 := by simp [Word.clsBit]
  rw [hbit]
  generalize w.clsBit = b
  revert b
  decide

/-- DEST is 0-3 exactly when its upper bit, bit 26, is 0. -/
theorem dest_lt_four_iff (w : Word) : w.dest.toNat < 4 ↔ w.getLsbD 26 = false := by
  have hbit : w.getLsbD 26 = w.dest.getLsbD 2 := by simp [Word.dest]
  rw [hbit]
  generalize w.dest = d
  revert d
  decide

/-- A legal word: the reserved bits are 0, OP is assigned, and the fields are those the opcode's shape allows. -/
theorem not_illegalWord_iff (w : Word) : ¬ IllegalWord w ↔
    w.op ∈ plainOps ++ dirClsOps ++ kdfOps ∧ (w.reservedLow = 0 ∧ w.reservedHigh = 0) ∧
      (w.op ∈ plainOps → w.dirBit = 0 ∧ w.clsBit = 0 ∧ w.label = 0 ∧ w.dest = 0) ∧
      (w.op ∈ dirClsOps → w.label = 0 ∧ w.dest = 0) ∧ (w.op ∈ kdfOps → w.clsBit = 0 ∧ w.dest.toNat < 4) := by
  have hplain : w.dirBit = 0 ∧ w.clsBit = 0 ∧ w.label = 0 ∧ w.dest = 0 ↔ w.extractLsb' 8 2 = 0 ∧ w.extractLsb' 16 11 = 0 := by
    rw [dirCls_eq_zero_iff, labelDest_eq_zero_iff, and_assoc]
  rw [hplain, ← labelDest_eq_zero_iff, clsBit_eq_zero_iff, dest_lt_four_iff]
  simp only [IllegalWord, Word.op, Word.reservedLow, Word.reservedHigh, not_or, not_and, not_not, imp_and, ne_eq, Bool.not_eq_true]

/-- A word that is not illegal decodes: the rule of its opcode's shape accepts it (R104). -/
theorem decode_of_not_illegalWord {w : Word} (h : ¬ IllegalWord w) : ∃ i, decode w = .ok i := by
  obtain ⟨hop, hr, hplain, hdirCls, hkdf⟩ := (not_illegalWord_iff w).1 h
  have hw := decodedBy_decode w
  generalize decode w = d at hw
  cases hw with
  | reserved hr' => exact absurd hr hr'
  | unassigned hop' => exact absurd hop hop'
  | plain i _ hop => exact ⟨_, decodePlain_eq_ok_iff.2 ⟨hplain hop, rfl⟩⟩
  | dirCls mk _ hop => exact ⟨_, decodeDirCls_eq_ok_iff.2 ⟨hdirCls hop, rfl⟩⟩
  | kdf mk _ hop => exact ⟨_, decodeKdf_eq_ok_iff.2 ⟨hkdf hop, rfl⟩⟩

/-! The rows of the opcode table. -/

/-- The rows by the shape of their opcode (R103, R106). -/
theorem commandTable_shapes : ∀ r ∈ commandTable,
    (∃ op ∈ plainOps, r = (op.setWidth 32, 0xFFFFFFFF)) ∨ (∃ op ∈ dirClsOps, r = (op.setWidth 32, 0xFFFFFCFF)) ∨
      (∃ op ∈ kdfOps, r = (op.setWidth 32, 0xFC00FEFF)) := by
  simp [commandTable, plainOps, dirClsOps, kdfOps]

/-- An opcode has one shape. -/
theorem shapes_disjoint : (∀ op ∈ dirClsOps, op ∉ plainOps ∧ op ∉ kdfOps) ∧ (∀ op ∈ kdfOps, op ∉ plainOps ∧ op ∉ dirClsOps) := by
  decide

/-- A word that selects a row with `op` as match has OP under the mask equal to `op`, and its other fields under the mask 0. -/
theorem fields_of_selects {w m : Word} {op : Byte} (h : w &&& m = op.setWidth 32) :
    w.op &&& m.op = op ∧ w.dirBit &&& m.dirBit = 0 ∧ w.clsBit &&& m.clsBit = 0 ∧ w.reservedLow &&& m.reservedLow = 0 ∧
      w.label &&& m.label = 0 ∧ w.dest &&& m.dest = 0 ∧ w.reservedHigh &&& m.reservedHigh = 0 := by
  have hpack : op.setWidth 32 = packCommand 0 0 0 0 op := by
    simp [BitVec.setWidth_eq_append, packCommand]
  have place : ∀ start len, w.extractLsb' start len &&& m.extractLsb' start len =
      (packCommand 0 0 0 0 op).extractLsb' start len := by
    intro start len
    rw [← BitVec.extractLsb'_and, h, hpack]
  obtain ⟨pop, pdir, pcls, plow, plabel, pdest, phigh⟩ := packCommand_places 0 0 0 0 op
  exact ⟨(place _ _).trans pop, (place _ _).trans pdir, (place _ _).trans pcls, (place _ _).trans plow, (place _ _).trans plabel,
    (place _ _).trans pdest, (place _ _).trans phigh⟩

/-- A word that selects a row is legal, and the row's match is its OP: a row's mask keeps OP, the reserved bits and the fields
that its shape does not use. -/
theorem not_illegalWord_of_selects {w : Word} {r : Word × Word} (hr : r ∈ commandTable) (h : w &&& r.2 = r.1) :
    ¬ IllegalWord w ∧ r.1 = w.op.setWidth 32 := by
  have kept : ∀ {n : Nat} {x y m : BitVec n}, x &&& m = y → m = BitVec.allOnes n → x = y := by
    rintro n x y m h rfl
    rwa [BitVec.and_allOnes] at h
  rw [not_illegalWord_iff]
  rcases commandTable_shapes r hr with ⟨op, hmem, rfl⟩ | ⟨op, hmem, rfl⟩ | ⟨op, hmem, rfl⟩ <;>
    dsimp only at h <;>
    obtain ⟨hop, hdir, hcls, hlow, hlabel, hdest, hhigh⟩ := fields_of_selects h <;>
    obtain rfl := kept hop rfl
  · refine ⟨⟨by simp [hmem], ⟨kept hlow rfl, kept hhigh rfl⟩, ?_, ?_, ?_⟩, rfl⟩
    · exact fun _ => ⟨kept hdir rfl, kept hcls rfl, kept hlabel rfl, kept hdest rfl⟩
    · exact fun hop => absurd hmem (shapes_disjoint.1 _ hop).1
    · exact fun hop => absurd hmem (shapes_disjoint.2 _ hop).1
  · refine ⟨⟨by simp [hmem], ⟨kept hlow rfl, kept hhigh rfl⟩, ?_, ?_, ?_⟩, rfl⟩
    · exact fun hop => absurd hop (shapes_disjoint.1 _ hmem).1
    · exact fun _ => ⟨kept hlabel rfl, kept hdest rfl⟩
    · exact fun hop => absurd hop (shapes_disjoint.1 _ hmem).2
  · refine ⟨⟨by simp [hmem], ⟨kept hlow rfl, kept hhigh rfl⟩, ?_, ?_, ?_⟩, rfl⟩
    · exact fun hop => absurd hop (shapes_disjoint.2 _ hmem).1
    · exact fun hop => absurd hop (shapes_disjoint.2 _ hmem).2
    · have low : ∀ d : BitVec 3, d &&& 4 = 0 → d.toNat < 4 := by decide
      exact fun _ => ⟨kept hcls rfl, low _ hdest⟩

/-- The word of a well-formed command selects the command's row (R106). -/
theorem tableRow (i : Instr) : Laws.TableRow.Statement i := by
  cases i with
  | nop => exact Laws.TableRow.nop
  | cmIvRtp => exact Laws.TableRow.cmIvRtp
  | cmIvRtcp => exact Laws.TableRow.cmIvRtcp
  | cmXor dir cls => exact Laws.TableRow.cmXor dir cls
  | kdfRtp dir label dest => exact Laws.TableRow.kdfRtp dir label dest
  | kdfRtcp dir label dest => exact Laws.TableRow.kdfRtcp dir label dest
  | f8IvRtp => exact Laws.TableRow.f8IvRtp
  | f8IvRtcp => exact Laws.TableRow.f8IvRtcp
  | f8IvPrime dir cls => exact Laws.TableRow.f8IvPrime dir cls
  | f8Xor dir cls => exact Laws.TableRow.f8Xor dir cls
  | srtpProtect => exact Laws.TableRow.srtpProtect
  | srtpUnprotect => exact Laws.TableRow.srtpUnprotect
  | srtpParse => exact Laws.TableRow.srtpParse
  | srtcpProtect => exact Laws.TableRow.srtcpProtect
  | srtcpUnprotect => exact Laws.TableRow.srtcpUnprotect
  | srtcpParse => exact Laws.TableRow.srtcpParse

/-- A word that decodes selects the row of its command (R106). -/
theorem selects_row_of_decode {w : Word} {i : Instr} (h : decode w = .ok i) :
    (i.opcode.setWidth 32, i.mask) ∈ commandTable ∧ w &&& i.mask = i.opcode.setWidth 32 := by
  obtain ⟨hwf, rfl⟩ := encodeOfDecodeIsTheWord w i h
  exact tableRow i hwf

/-- Settles O3: decoding gives a row, a row's word is not illegal, and such a word decodes; the match is OP, which no two
rows share. -/
theorem legalWordsAreTheTableRows : Obligations.LegalWordsAreTheTableRows := by
  refine ⟨fun w => ⟨fun ⟨i, h⟩ => ⟨_, selects_row_of_decode h⟩, fun ⟨r, hr, h⟩ => ?_⟩, fun w i h => selects_row_of_decode h,
    fun w r hr r' hr' h h' => ?_⟩
  · exact decode_of_not_illegalWord (not_illegalWord_of_selects hr h).1
  · have hmatch : r.1 = r'.1 := (not_illegalWord_of_selects hr h).2.trans (not_illegalWord_of_selects hr' h').2.symm
    exact List.inj_on_of_nodup_map (f := Prod.fst) (by decide) hr hr' hmatch

/-- R104's cases are what the decoder rejects: a word that decodes selects a row, so it is not illegal. -/
theorem illegalWord_iff (w : Word) : IllegalWord w ↔ ∃ e, decode w = .error e := by
  constructor
  · intro h
    cases hd : decode w with
    | error e => exact ⟨e, rfl⟩
    | ok i =>
      obtain ⟨hr, hsel⟩ := selects_row_of_decode hd
      exact absurd h (not_illegalWord_of_selects hr hsel).1
  · rintro ⟨e, he⟩
    by_contra h
    obtain ⟨i, hi⟩ := decode_of_not_illegalWord h
    cases he.symm.trans hi

/-- A busy engine's turn on a word that does not decode completes with ILLEGAL_COMMAND (R104, R105). -/
theorem engineTurn_of_decode_error {s : State} {e : Illegal} (hm : s.mode = .busy) (hd : decode s.pending = .error e) :
    engineTurn s = .next (s.complete .illegalCommand) := by
  simp only [engineTurn, State.fetch, hm, hd]

/-- Settles O4: CMD takes every word, and `State.complete` writes STATUS and the mode alone. -/
theorem illegalWordsCompleteWithIllegalCommand : Obligations.IllegalWordsCompleteWithIllegalCommand := by
  refine ⟨illegalWord_iff, fun s w _ hb => ?_, fun s hw hm => ?_⟩
  · exact (commandWriteIsAcceptedWhenIdle s w).1 hb
  · obtain ⟨e, he⟩ := (illegalWord_iff s.pending).1 hw
    exact engineTurn_of_decode_error hm he

/-- Settles O5: each word is decoded by evaluation. -/
theorem sampleWordsDecode : Obligations.SampleWordsDecode := by
  unfold Obligations.SampleWordsDecode
  decide

end Sys2Proof.Machine

/-! PROOFS. The step by the next event (R53, R87, R89), and that PURPOSE reaches no result (R91, R101). -/

namespace Sys2Proof.Machine

/-- An idle engine's turn does nothing (R291). -/
theorem engineTurn_of_idle {s : State} (hm : s.mode = .idle) : engineTurn s = .next s := by
  simp only [engineTurn, hm]

/-- Settles O6: a step is `runEvent` of the next event on the state that has it taken off. -/
theorem stepRunsTheDecodedCommand : Obligations.StepRunsTheDecodedCommand := by
  refine ⟨fun s i he hm hd => ?_, fun s he hm => ?_, fun s off he => ?_, fun s off w he => ?_, fun s ram he => ?_,
    fun s nbits w i hd => ?_⟩
  · rw [step, he]
    exact engineTurn_of_decode (s := s.popEvent) hm hd
  · rw [step, he]
    exact engineTurn_of_idle (s := s.popEvent) hm
  · rw [step, he]
    rfl
  · rw [step, he]
    rfl
  · rw [step, he]
    exact ⟨_, rfl, rfl, rfl⟩
  · have hword : decode (tableWord nbits w) = .ok i := by
      unfold decodeTableWord at hd
      split at hd
      · cases hd; assumption
      · cases hd
    have hsched : (s.withFetchWord nbits w).schedule = .engineTurn :: s.schedule := rfl
    have hstate : { s.withFetchWord nbits w with schedule := s.schedule } = s.accept (tableWord nbits w) := rfl
    rw [step_of_schedule hsched, hstate]
    exact engineTurn_of_decode (State.accept_mode _ _) hword

/-- PURPOSE changes no answer of the cipher port, which is a pure function of key and block (R91, log 15). -/
theorem encryptBlock_purpose (P : Params) (pu pu' : Purpose) : encryptBlock P pu = encryptBlock P pu' := rfl

theorem cmBlocks_purpose (P : Params) (pu pu' : Purpose) (key : List Byte) (iv : Block) (j nb : Nat) :
    cmBlocks P pu key iv j nb = cmBlocks P pu' key iv j nb := by
  induction nb generalizing j with
  | zero => rfl
  | succ nb ih => rw [cmBlocks, cmBlocks, ih, encryptBlock_purpose P pu pu']

theorem cmKeystream_purpose (P : Params) (pu pu' : Purpose) : cmKeystream P pu = cmKeystream P pu' := by
  funext key iv n
  rw [cmKeystream, cmKeystream, cmBlocks_purpose P pu pu']

/-- F8 takes DIR only into what is chained, and PURPOSE nowhere (R187). -/
theorem f8Blocks_congr {P : Params} {dir dir' : Dir} (hchain : f8Chain P dir = f8Chain P dir') (pu pu' : Purpose) (key : List Byte)
    (ivp : Block) (j : Nat) (fb : Block) (data : List Byte) (nb : Nat) :
    f8Blocks P pu key ivp dir j fb data nb = f8Blocks P pu' key ivp dir' j fb data nb := by
  induction nb generalizing j fb data with
  | zero => rfl
  | succ nb ih =>
    have hblock : f8KeystreamBlock P pu = f8KeystreamBlock P pu' := rfl
    simp only [f8Blocks, ih, hblock, hchain]

theorem f8XorWith_congr {P : Params} {dir dir' : Dir} (hchain : f8Chain P dir = f8Chain P dir') (cls cls' : Cls) (s : State) :
    f8XorWith P dir cls s = f8XorWith P dir' cls' s := by
  have hiv : s.ivPrime P dir cls = s.ivPrime P dir' cls' := rfl
  simp only [f8XorWith, f8Process, hiv, f8Blocks_congr hchain ⟨.direct, cls, dir⟩ ⟨.direct, cls', dir'⟩]

/-- Under F8_FEEDBACK = KEYSTREAM the keystream is chained, whatever DIR (R187). -/
theorem f8Chain_keystream {P : Params} (hP : P.f8Feedback = .keystream) (dir dir' : Dir) : f8Chain P dir = f8Chain P dir' := by
  funext keystream input output
  simp only [f8Chain, hP]

theorem kdfWith_dir (P : Params) (cls : Cls) (dir dir' : Dir) : kdfWith P cls dir = kdfWith P cls dir' := by
  funext label dest index w s
  simp only [kdfWith, State.derived, kdf, cmKeystream_purpose P ⟨.keyDerivation, cls, dir⟩ ⟨.keyDerivation, cls, dir'⟩]

/-- Settles O57: DIR and CLS reach the commands only through PURPOSE, but for F8's chaining. -/
theorem dirAndClsOnlySelectThePurpose : Obligations.DirAndClsOnlySelectThePurpose := by
  refine ⟨fun ⟨use, cls, dir⟩ => by cases use <;> cases cls <;> cases dir <;> rfl,
    fun s dir dir' cls cls' label dest => ⟨?_, ?_, ?_, ?_, ?_, fun P hP => ?_⟩⟩
  · simp only [exec_cmXor, cmXor, cmKeystream_purpose _ ⟨.direct, cls, dir⟩ ⟨.direct, cls', dir'⟩]
  · rfl
  · exact f8XorWith_congr rfl cls cls' s
  · rw [exec_kdfRtp, exec_kdfRtp, kdfWith_dir _ _ dir dir']
  · rw [exec_kdfRtcp, exec_kdfRtcp, kdfWith_dir _ _ dir dir']
  · exact f8XorWith_congr (f8Chain_keystream hP dir dir') cls cls' s

end Sys2Proof.Machine

/-! PROOFS. The IVs of AES-CM (R130-R132): the salt alignment, and both IVs as XORs into the aligned salt. -/

namespace Sys2Proof.Machine

/-- Settles O40: a short salt is padded by definition; what a long one loses is its first bytes. -/
theorem saltAlignmentIsRightAligned : Obligations.SaltAlignmentIsRightAligned := by
  refine fun s => ⟨length_saltAlign14 s, fun h => if_pos h, fun h => ⟨s.take (s.length - 14), by simp, ?_⟩⟩
  rw [saltAlign14, if_neg (by omega), List.take_append_drop]

/-- XOR into the first part of a byte string leaves the rest alone. -/
theorem xorAt_append (x z t : List Byte) (a : Nat) (h : a + t.length ≤ x.length) : xorAt (x ++ z) a t = xorAt x a t ++ z := by
  have hslice : slice (x ++ z) a t.length = slice x a t.length := by
    rw [slice, slice, List.drop_append_of_le_length (by omega), List.take_append_of_le_length (by simp; omega)]
  have hlen : (xorBytes (slice x a t.length) t).length = t.length := by simp [slice]; omega
  rw [xorAt, xorAt, hslice, putAt, putAt, hlen, List.take_append_of_le_length (by omega), List.drop_append_of_le_length h,
    ← List.append_assoc]

/-- SSRC lies inside the aligned salt. -/
theorem length_saltAlign14_xorAt_ssrc (salt : List Byte) (ssrc : BitVec 32) :
    (xorAt (saltAlign14 salt) 4 (beBytes 4 ssrc.toNat)).length = 14 := by
  rw [length_xorAt _ _ _ (by simp [length_saltAlign14]), length_saltAlign14]

/-- The RTP IV: ssrc at byte 4 and the index at byte 8, XORed into the aligned salt, then the counter field, zero (R131). -/
theorem toList_cmIvRtp (salt : List Byte) (ssrc : BitVec 32) (index : BitVec 48) :
    (cmIvRtp salt ssrc index).toList =
      xorAt (xorAt (saltAlign14 salt) 4 (beBytes 4 ssrc.toNat)) 8 (beBytes 6 index.toNat) ++ zeros 2 := by
  have hsalt := length_saltAlign14 salt
  have hssrc := length_saltAlign14_xorAt_ssrc salt ssrc
  have hindex : (xorAt (xorAt (saltAlign14 salt) 4 (beBytes 4 ssrc.toNat)) 8 (beBytes 6 index.toNat)).length = 14 := by
    rw [length_xorAt _ _ _ (by simp [hssrc]), hssrc]
  rw [cmIvRtp, xorAt_append _ _ _ _ (by simp [hsalt]), xorAt_append _ _ _ _ (by simp [hssrc]), putAt,
    List.take_left' hindex, List.drop_of_length_le (by simp [hindex]), List.append_nil, toList_fit _ (by simp [hindex])]

/-- The RTCP IV: as the RTP IV, with the 31-bit index at byte 10 (R132). -/
theorem toList_cmIvRtcp (salt : List Byte) (ssrc : BitVec 32) (index31 : BitVec 31) :
    (cmIvRtcp salt ssrc index31).toList =
      xorAt (xorAt (saltAlign14 salt) 4 (beBytes 4 ssrc.toNat)) 10 (beBytes 4 index31.toNat) ++ zeros 2 := by
  have hsalt := length_saltAlign14 salt
  have hssrc := length_saltAlign14_xorAt_ssrc salt ssrc
  have hindex : (xorAt (xorAt (saltAlign14 salt) 4 (beBytes 4 ssrc.toNat)) 10 (beBytes 4 index31.toNat)).length = 14 := by
    rw [length_xorAt _ _ _ (by simp [hssrc]), hssrc]
  rw [cmIvRtcp, xorAt_append _ _ _ _ (by simp [hsalt]), xorAt_append _ _ _ _ (by simp [hssrc]),
    toList_fit _ (by simp [hindex])]

/-- XOR of `t` into a byte string, as integers: `t` moved up by the bytes that follow it. -/
theorem beRead_xorAt (x t : List Byte) (a : Nat) (h : a + t.length ≤ x.length) :
    beRead (xorAt x a t) = beRead x ^^^ (beRead t * 256 ^ (x.length - a - t.length)) := by
  rw [xorAt_eq x t a h, beRead_xorBytes _ _ (by simp; omega), beRead_append, beRead_append]
  simp

/-- Settles O38: the three byte strings of `toList_cmIvRtp` as integers, moved up by the two bytes of the counter field. -/
theorem cmIvRtpIsTheIntegerFormula : Obligations.CmIvRtpIsTheIntegerFormula := by
  intro salt ssrc index
  have hsalt := length_saltAlign14 salt
  have hssrc := length_saltAlign14_xorAt_ssrc salt ssrc
  have bssrc : beRead (beBytes 4 ssrc.toNat) = ssrc.toNat := (beRead_beBytes 4 _).trans (Nat.mod_eq_of_lt ssrc.isLt)
  have bindex : beRead (beBytes 6 index.toNat) = index.toNat := (beRead_beBytes 6 _).trans (Nat.mod_eq_of_lt index.isLt)
  rw [toList_cmIvRtp, beRead_append, beRead_xorAt _ _ _ (by simp [hssrc]), beRead_xorAt _ _ _ (by simp [hsalt]),
    hsalt, hssrc, bssrc, bindex]
  have shift : ∀ a b c : Nat, (a ^^^ b * 2 ^ 48 ^^^ c) * 2 ^ 16 = a * 2 ^ 16 ^^^ b * 2 ^ 64 ^^^ c * 2 ^ 16 := by
    intro a b c
    simp only [← Nat.shiftLeft_eq, Nat.shiftLeft_xor_distrib, ← Nat.shiftLeft_add]
  simpa using shift (beRead (saltAlign14 salt)) ssrc.toNat index.toNat

/-- A number that fits `n` bytes has zeros before them. -/
theorem beBytes_add (m n v : Nat) (h : v < 256 ^ n) : beBytes (m + n) v = zeros m ++ beBytes n v := by
  have hv : beRead (zeros m ++ beBytes n v) = v := by
    rw [beRead_append, beRead_zeros, beRead_beBytes, Nat.mod_eq_of_lt h, Nat.zero_mul, Nat.zero_add]
  simpa [hv] using beBytes_beRead (zeros m ++ beBytes n v)

/-- XOR with leading zeros is XOR of the rest, as many bytes further on. -/
theorem xorAt_zeros_append (x t : List Byte) (a m : Nat) (h : a + m + t.length ≤ x.length) :
    xorAt x a (zeros m ++ t) = xorAt x (a + m) t := by
  have hz : zeros (a + m) = zeros a ++ zeros m := by simp [zeros]
  rw [xorAt_eq _ _ _ (by simp; omega), xorAt_eq _ _ _ h, hz, List.append_assoc, List.append_assoc]
  simp only [List.length_append, length_zeros, Nat.sub_sub, Nat.add_assoc]

/-- Settles O39: the six bytes of the extended index are two zeros and the four bytes of the 31-bit index. -/
theorem cmIvRtcpIsCmIvRtpOfTheExtendedIndex : Obligations.CmIvRtcpIsCmIvRtpOfTheExtendedIndex := by
  intro salt ssrc index31
  have hlt : index31.toNat < 2 ^ 31 := index31.isLt
  have hext : (index31.setWidth 48).toNat = index31.toNat := BitVec.toNat_setWidth_of_le (by decide)
  have hindex : beBytes 6 index31.toNat = zeros 2 ++ beBytes 4 index31.toNat := beBytes_add 2 4 _ (by omega)
  have hssrc := length_saltAlign14_xorAt_ssrc salt ssrc
  apply Vector.toList_inj.mp
  rw [toList_cmIvRtcp, toList_cmIvRtp, hext, hindex, xorAt_zeros_append _ _ _ _ (by simp [hssrc])]

end Sys2Proof.Machine

/-! PROOFS. The AES-CM keystream and its XOR with the data (R133-R136). -/

namespace Sys2Proof.Machine

/-- Byte `k` of an XOR; beyond the end all three read 0. -/
theorem getD_xorBytes (s t : List Byte) (h : s.length = t.length) (k : Nat) :
    (xorBytes s t).getD k 0 = s.getD k 0 ^^^ t.getD k 0 := by
  by_cases hk : k < s.length
  · have ht : k < t.length := h ▸ hk
    simp [xorBytes, List.getD_eq_getElem?_getD, hk, ht]
  · have ht : ¬ k < t.length := h ▸ hk
    simp [xorBytes, List.getD_eq_getElem?_getD, hk, ht]

/-- The counter block: bytes 14-15 are `j` in network order, modulo 2^16 (R133). -/
theorem toList_ctrBlock (iv : Block) (j : Nat) :
    (ctrBlock iv j).toList = iv.toList.take 14 ++ [BitVec.ofNat 8 (j / 256), BitVec.ofNat 8 j] := by
  have hj : beBytes 2 (j % 65536) = beBytes 2 j := beBytes_mod 2 j
  rw [ctrBlock, toList_fit _ (by simp), hj]
  simp [beBytes]

section
variable (P : Params) (pu : Purpose) (key : List Byte) (iv : Block)

/-- Fewer blocks are the first of more. -/
theorem cmBlocks_take (j : Nat) {nb nb' : Nat} (h : nb ≤ nb') :
    (cmBlocks P pu key iv j nb').take (16 * nb) = cmBlocks P pu key iv j nb := by
  induction nb generalizing j nb' with
  | zero => rfl
  | succ nb ih =>
    obtain ⟨nb', rfl⟩ : ∃ k, nb' = k + 1 := ⟨nb' - 1, by omega⟩
    have hblock : (encryptBlock P pu key (ctrBlock iv j)).toList.length = 16 := by simp
    rw [cmBlocks, cmBlocks, List.take_append, List.take_of_length_le (by omega), hblock,
      show 16 * (nb + 1) - 16 = 16 * nb by omega, ih _ (by omega)]

/-- A shorter keystream is a prefix of a longer one (R136). -/
theorem cmKeystream_take {n n' : Nat} (h : n ≤ n') : (cmKeystream P pu key iv n').take n = cmKeystream P pu key iv n := by
  have hblocks : ceilDiv n 16 ≤ ceilDiv n' 16 := by unfold ceilDiv; omega
  have hn := le_mul_ceilDiv n
  rw [cmKeystream, cmKeystream, List.take_take, ← cmBlocks_take P pu key iv 0 hblocks, List.take_take, Nat.min_eq_left h,
    Nat.min_eq_left hn]

/-- Block `j` of the keystream, cut at its end (R134). -/
theorem cmKeystream_block (n j : Nat) (h : 16 * j < n) :
    ((cmKeystream P pu key iv n).drop (16 * j)).take 16 = (P.cipher key (ctrBlock iv j)).toList.take (n - 16 * j) := by
  have hblock := cmBlocks_block P pu key iv 0 (ceilDiv n 16) j (by unfold ceilDiv; omega)
  rw [cmKeystream, List.drop_take, List.take_take, Nat.min_comm, ← List.take_take, hblock, Nat.zero_add]

/-- CmXor undoes itself, whatever the two PURPOSEs (R136). -/
theorem cmXor_cmXor (pu' : Purpose) (d : List Byte) : cmXor P pu' key iv (cmXor P pu key iv d) = d := by
  rw [cmXor, length_cmXor, cmXor, cmKeystream_purpose P pu' pu]
  exact xorBytes_xorBytes _ _ (by simp)

end

/-- Settles O36: the keystream by `cmKeystream_block` and `cmKeystream_take`, CmXor as the XOR with it. -/
theorem cmXorIsALengthPreservingInvolution : Obligations.CmXorIsALengthPreservingInvolution := by
  intro P pu key iv d
  refine ⟨length_cmKeystream P pu key iv, fun n j ctr hj hctr => ?_, fun k => getD_xorBytes _ _ (by simp) k,
    length_cmXor P pu key iv d, cmXor_cmXor P pu key iv pu d, fun k => ?_, fun n n' h => (cmKeystream_take P pu key iv h).symm,
    fun n => ?_⟩
  · obtain rfl : ctr = ctrBlock iv j := Vector.toList_inj.mp (hctr.trans (toList_ctrBlock iv j).symm)
    exact cmKeystream_block P pu key iv n j hj
  · rw [cmXor, cmXor, xorBytes_take, List.length_take]
    rcases Nat.le_total k d.length with hk | hk
    · rw [cmKeystream_take P pu key iv hk, Nat.min_eq_left hk]
    · rw [Nat.min_eq_right hk, List.take_of_length_le hk, List.take_of_length_le (by simpa using hk)]
  · rw [cmXor, List.length_replicate]
    exact xorBytes_zeros _ n (by simp)

end Sys2Proof.Machine

/-! PROOFS. The AES-CM commands CM_IV_RTP, CM_IV_RTCP and CM_XOR (R140-R142). -/

namespace Sys2Proof.Machine

/-- The code of CM_IV_RTP and CM_IV_RTCP, in the order of their rule (R140, R141). -/
theorem cmIvChecks_code (s : State) (header : Nat) : (firstRaised (cmIvChecks Config.params s header)).getD .ok =
    if s.saltLen = 0 then .nullArgument
    else if 16 < s.saltLen.toNat then .badParameter
    else if Config.params.pktCap < s.pktLen.toNat ∨ s.pktLen.toNat < header then .badParameter
    else .ok := by
  have hlen : (decide (s.packetLen < header) || decide (Config.params.pktCap < s.packetLen)) =
      decide (Config.params.pktCap < s.pktLen.toNat ∨ s.pktLen.toNat < header) :=
    (Bool.or_comm _ _).trans (Bool.decide_or _ _).symm
  simp only [cmIvChecks, hlen, firstRaised_cons, firstRaised_nil, decide_eq_true_eq]
  split_ifs <;> rfl

/-- A loaded salt and a packet that holds the header and fits the buffer pass the checks (R140, R141). -/
theorem cmIvChecks_pass {s : State} {header : Nat} (hsalt : SaltReady s) (hfits : PacketFits s)
    (hlen : header ≤ s.pktLen.toNat) :
    firstRaised (cmIvChecks Config.params s header) = none := by
  obtain ⟨hne, hle⟩ := hsalt
  simpa [cmIvChecks, State.packetLen, Nat.not_lt.2 hle, Nat.not_lt.2 hfits, Nat.not_lt.2 hlen] using hne

/-- Settles O16: the checks pass or report, and the IV is the command's one write. -/
theorem cmIvRtpBuildsTheIv : Obligations.CmIvRtpBuildsTheIv := by
  refine ⟨by decide, fun s hsalt hfits hlen => ?_, fun s => ?_⟩
  · have hpass := cmIvChecks_pass hsalt hfits hlen
    exact ⟨_, (exec_cmIvRtp s).trans (runCommand_of_none hpass), completedWith_ok rfl rfl, rfl, rfl⟩
  · exact reports_of_runCommand (exec_cmIvRtp s) rfl rfl (cmIvChecks_code s 12)

/-- Settles O17: as CM_IV_RTP, with the RTCP header, SSRC and index. -/
theorem cmIvRtcpBuildsTheIv : Obligations.CmIvRtcpBuildsTheIv := by
  refine ⟨by decide, fun s hsalt hfits hlen => ?_, fun s => ?_⟩
  · have hpass := cmIvChecks_pass hsalt hfits hlen
    exact ⟨_, (exec_cmIvRtcp s).trans (runCommand_of_none hpass), completedWith_ok rfl rfl, rfl, rfl⟩
  · exact reports_of_runCommand (exec_cmIvRtcp s) rfl rfl (cmIvChecks_code s 8)

/-- The code of CM_XOR, in the order of its rule (R142). -/
theorem cmXorChecks_code (s : State) : (firstRaised (cmXorChecks Config.params s)).getD .ok =
    if s.ekeyLen = 0 then .nullArgument
    else if 32 < s.ekeyLen.toNat then .badParameter
    else if Config.params.pktCap < s.boff.toNat + s.blen.toNat then .badParameter
    else if Config.params.keyBitsOk (8 * s.ekeyLen.toNat) = false then .failed
    else .ok := by
  simp only [cmXorChecks, firstRaised_cons, firstRaised_nil, keyAccepted, Bool.not_eq_true', decide_eq_true_eq]
  split_ifs <;> rfl

/-- A loaded key of an accepted size and a range inside the buffer pass the checks (R142). -/
theorem cmXorChecks_pass {s : State} (hkey : EkeyReady s) (hfits : RangeFits s) :
    firstRaised (cmXorChecks Config.params s) = none := by
  obtain ⟨hne, hle, hsize⟩ := hkey
  simpa [cmXorChecks, keyAccepted, Nat.not_lt.2 hle, Nat.not_lt.2 hfits, hsize] using hne

/-- A range of the buffer after CmXor of it was stored there. -/
theorem Memory.load_store_cmXor {m : Memory} (hm : m.wf = true) (P : Params) (pu : Purpose) (key : List Byte) (iv : Block)
    (a n : Nat) : (m.store a (cmXor P pu key iv (m.load a n))).load a n = cmXor P pu key iv (m.load a n) := by
  simpa using Memory.load_store_same hm a (cmXor P pu key iv (m.load a n))

/-- Settles O18: the store has the length of the range, so it is read back there and leaves every other byte alone. -/
theorem cmXorTransformsTheRange : Obligations.CmXorTransformsTheRange := by
  refine ⟨by decide, fun s dir cls hwf hkey hfits => ?_, fun s dir cls => ?_⟩
  · refine ⟨_, (exec_cmXor dir cls s).trans (runCommand_of_none (cmXorChecks_pass hkey hfits)), completedWith_ok rfl rfl, ?_,
      fun a ha => ?_, rfl⟩
    · exact Memory.load_store_cmXor hwf Config.params _ s.ekeyBytes s.ivreg _ _
    · exact Memory.read_store_outside _ _ _ _ (by simpa using ha)
  · exact reports_of_runCommand (exec_cmXor dir cls s) rfl rfl (cmXorChecks_code s)

/-- Storing back what a store has overwritten restores the buffer. -/
theorem Memory.store_store_load {m : Memory} (hm : m.wf = true) (a : Nat) (bs : List Byte) :
    (m.store a bs).store a (m.load a bs.length) = m := by
  have hm' := Memory.wf_store hm a bs
  refine Memory.ext_read (Memory.wf_store hm' _ _) hm fun a' => ?_
  by_cases ha : a ≤ a' ∧ a' < a + bs.length
  · obtain ⟨k, rfl⟩ := Nat.exists_eq_add_of_le ha.1
    rw [Memory.read_store_inside hm' _ _ k (by simp; omega), Memory.getElem_load]
  · rw [Memory.read_store_outside _ _ _ _ (by simp; omega), Memory.read_store_outside _ _ _ _ (by omega)]

/-- CmXor over a range of the buffer, twice, gives the buffer back, whatever the PURPOSEs (R142). -/
theorem Memory.store_cmXor_twice {m m' : Memory} (hm : m.wf = true) (P : Params) (pu pu' : Purpose) (key : List Byte) (iv : Block)
    (a n : Nat) (h : m' = m.store a (cmXor P pu key iv (m.load a n))) :
    m'.store a (cmXor P pu' key iv (m'.load a n)) = m := by
  subst h
  rw [Memory.load_store_cmXor hm, cmXor_cmXor]
  simpa using Memory.store_store_load hm a (cmXor P pu key iv (m.load a n))

/-- Settles O35: the second command runs on the same operands, so it passes the same checks and undoes the first. -/
theorem cmXorTwiceRestoresTheBuffer : Obligations.CmXorTwiceRestoresTheBuffer := by
  intro s t dir dir' cls cls' hwf h hok
  rw [exec_cmXor] at h
  obtain ⟨hpass, rfl⟩ := runCommand_ok h (by simp [cmXorChecks]) hok
  refine ⟨_, (exec_cmXor dir' cls' _).trans (runCommand_of_none hpass), ?_⟩
  have hback := Memory.store_cmXor_twice hwf Config.params ⟨.direct, cls, dir⟩ ⟨.direct, cls', dir'⟩ s.ekeyBytes s.ivreg
    s.boff.toNat s.blen.toNat rfl
  exact congrArg (fun m => (s.apply (.pkt m)).complete .ok) hback

end Sys2Proof.Machine

/-! PROOFS. The key derivation (R160-R163): its IV, and the quotient through which alone it depends on the index. -/

namespace Sys2Proof.Machine

/-- The key identifier fills a block whatever the width of r (R161). -/
@[simp] theorem length_keyId (label : Byte) (r : Nat) (w : RWidth) : (keyId label r w).length = 16 := by
  cases w <;> simp [keyId, RWidth.bytes]

/-- The derivation IV is the XOR of two byte strings that fill a block (R162). -/
theorem toList_kdfIv (label : Byte) (r : Nat) (w : RWidth) (msalt : List Byte) :
    (kdfIv label r w msalt).toList = xorBytes (keyId label r w) (saltAlign14 msalt ++ zeros 2) :=
  toList_fit _ (by simp [length_saltAlign14])

/-- Settles O41: the key identifier has seven or nine zeros before the label, as r has six or four bytes. -/
theorem derivationIvPlacesLabelAndR : Obligations.DerivationIvPlacesLabelAndR :=
  fun label r msalt => ⟨fun _ => toList_kdfIv label r .six msalt, fun _ => toList_kdfIv label r .four msalt⟩

/-- r depends on the index only through the quotient (R160). -/
theorem kdfR_congr {i j : Nat} {kdr : Word} (h : i / kdr.toNat = j / kdr.toNat) : kdfR i kdr = kdfR j kdr := by
  rw [kdfR, kdfR, h]

/-- Indexes with the same r give the same bytes, whatever the PURPOSEs (R91, R163). -/
theorem kdf_congr {i j : Nat} {kdr : Word} (h : kdfR i kdr = kdfR j kdr) (P : Params) (pu pu' : Purpose) (label : Byte) (n : Nat)
    (mkey msalt : List Byte) (w : RWidth) : kdf P pu label n mkey msalt kdr i w = kdf P pu' label n mkey msalt kdr j w := by
  rw [kdf, kdf, h, cmKeystream_purpose P pu pu']

/-- Settles O42: the index enters by r alone, and the prefix is the keystream's. -/
theorem derivationDependsOnlyOnTheQuotient : Obligations.DerivationDependsOnlyOnTheQuotient := by
  intro P pu pu' label n mkey msalt kdr i j w
  refine ⟨rfl, fun h => ?_, ?_, fun n' hn => ?_⟩
  · exact kdf_congr (kdfR_congr h) ..
  · exact kdf_congr (kdr := 0) rfl ..
  · exact (cmKeystream_take P pu mkey _ hn).symm

end Sys2Proof.Machine

/-! PROOFS. The key-derivation commands KDF_RTP and KDF_RTCP (R164-R166): both are `kdfWith`, with the class's index and r width. -/

namespace Sys2Proof.Machine

/-- The code of a KDF command with a destination, in the order of its rule (R165); `bad` is what makes BLEN illegal there. -/
theorem kdfChecks_code (s : State) (d : Dest) (bad : Prop) [Decidable bad]
    (hbad : kdfBadLength Config.params s d = decide bad) : (firstRaised (kdfChecks Config.params s d)).getD .ok =
    if s.mkeyLen = 0 ∨ s.msaltLen = 0 then .nullArgument
    else if 32 < s.mkeyLen.toNat then .badParameter
    else if 16 < s.msaltLen.toNat then .badParameter
    else if 2 ^ 24 < s.kdr.toNat then .badParameter
    else if bad then .badParameter
    else if Config.params.keyBitsOk (8 * s.mkeyLen.toNat) = false then .failed
    else .ok := by
  simp only [kdfChecks, hbad, firstRaised_cons, firstRaised_nil, keyAccepted, Bool.not_eq_true', Bool.or_eq_true, decide_eq_true_eq]
  split_ifs <;> rfl

/-- DEST names one of the four destinations or is reserved (R101). -/
theorem dest_cases (dest : BitVec 3) : dest = 0 ∨ dest = 1 ∨ dest = 2 ∨ dest = 3 ∨ 4 ≤ dest.toNat := by
  revert dest; decide

/-- The code of a KDF command for every DEST, in the order of its rule (R104 (d), R165). -/
theorem kdfDestChecks_code (s : State) (dest : BitVec 3) : (firstRaised (kdfDestChecks Config.params s dest)).getD .ok =
    if 4 ≤ dest.toNat then .illegalCommand
    else if s.mkeyLen = 0 ∨ s.msaltLen = 0 then .nullArgument
    else if 32 < s.mkeyLen.toNat then .badParameter
    else if 16 < s.msaltLen.toNat then .badParameter
    else if 2 ^ 24 < s.kdr.toNat then .badParameter
    else if dest = 3 ∧ Config.params.pktCap < s.boff.toNat + s.blen.toNat then .badParameter
    else if dest = 0 ∧ (s.blen = 0 ∨ 32 < s.blen.toNat) then .badParameter
    else if dest = 1 ∧ (s.blen = 0 ∨ 64 < s.blen.toNat) then .badParameter
    else if dest = 2 ∧ (s.blen = 0 ∨ 16 < s.blen.toNat) then .badParameter
    else if Config.params.keyBitsOk (8 * s.mkeyLen.toNat) = false then .failed
    else .ok := by
  rcases dest_cases dest with rfl | rfl | rfl | rfl | h
  · simpa [kdfDestChecks, destOf] using kdfChecks_code s .ekey (s.blen = 0 ∨ 32 < s.blen.toNat) (Bool.decide_or _ _).symm
  · simpa [kdfDestChecks, destOf] using kdfChecks_code s .akey (s.blen = 0 ∨ 64 < s.blen.toNat) (Bool.decide_or _ _).symm
  · simpa [kdfDestChecks, destOf] using kdfChecks_code s .salt (s.blen = 0 ∨ 16 < s.blen.toNat) (Bool.decide_or _ _).symm
  · simpa [kdfDestChecks, destOf] using kdfChecks_code s .pkt (Config.params.pktCap < s.boff.toNat + s.blen.toNat) rfl
  · simp [kdfDestChecks, (destOf_eq_none_iff dest).2 h, h]

/-- Master key, master salt and KDR in range, and a BLEN that the destination takes, pass the checks (R165). -/
theorem kdfChecks_pass {s : State} {d : Dest} (hm : MasterReady s) (hlen : kdfBadLength Config.params s d = false) :
    firstRaised (kdfChecks Config.params s d) = none := by
  obtain ⟨hkey, hsalt, hkeyLe, hsaltLe, hkdr, hsize⟩ := hm
  simpa [kdfChecks, keyAccepted, -Nat.reducePow, Nat.not_lt.2 hkeyLe, Nat.not_lt.2 hsaltLe, Nat.not_lt.2 hkdr, hsize, hlen]
    using And.intro hkey hsalt

/-- A BLEN of 1 to the window's size is legal for the windows (R164). -/
theorem kdfBadLength_window {s : State} {d : Dest} (hd : d ≠ .pkt) (h1 : 1 ≤ s.blen.toNat)
    (hle : s.blen.toNat ≤ Dest.windowSize d) : kdfBadLength Config.params s d = false := by
  have hne : s.blen ≠ 0 := fun h => by simp [h] at h1
  cases d with
  | pkt => exact absurd rfl hd
  | _ => simpa [kdfBadLength, hle] using hne

/-- Bytes put at the start of a window replace as many of it and leave the rest. -/
theorem toList_putWindow_zero {n : Nat} (w : Vector Byte n) (t : List Byte) (h : t.length ≤ n) :
    (putWindow w 0 t).toList = t ++ w.toList.drop t.length := by
  rw [toList_putWindow _ _ _ (by omega)]
  simp [putAt]

/-- A session key of BLEN bytes in its window, and its length register (R164). -/
theorem sessionKey_loaded {n : Nat} (w : Vector Byte n) {out : List Byte} {blen : Half} (hout : out.length = blen.toNat)
    (hle : blen.toNat ≤ n) (hn : n < 256) :
    (putWindow w 0 out).toList = out ++ w.toList.drop blen.toNat ∧ (blen.setWidth 8).toNat = blen.toNat := by
  constructor
  · rw [toList_putWindow_zero _ _ (by omega), hout]
  · rw [BitVec.toNat_setWidth, Nat.mod_eq_of_lt (by omega)]

section
variable {s : State} (hm : MasterReady s) (cls : Cls) (dir : Dir) (label : Byte) (index : Nat) (w : RWidth)

@[simp] theorem State.length_derived (P : Params) : (s.derived P cls dir label index w).length = s.blen.toNat := length_kdf ..

include hm

/-- A KDF command that passes its checks writes the derived bytes to its destination. -/
theorem kdfWith_ready {dest : BitVec 3} {d : Dest} (hd : destOf dest = some d) (hlen : kdfBadLength Config.params s d = false) :
    kdfWith Config.params cls dir label dest index w s =
      .next ((s.putDerived d (s.derived Config.params cls dir label index w)).complete .ok) :=
  (kdfWith_some _ _ _ _ _ _ _ _ d hd).trans (runCommand_of_none (kdfChecks_pass hm hlen))

/-- DEST = 0 loads EKEY (R164). -/
theorem kdfWith_ekey (h1 : 1 ≤ s.blen.toNat) (hle : s.blen.toNat ≤ 32) :
    ∃ t, kdfWith Config.params cls dir label 0 index w s = .next t ∧ CompletedWith .ok s t ∧
      t.ekey.toList = s.derived Config.params cls dir label index w ++ s.ekey.toList.drop s.blen.toNat ∧
      t.ekeyLen.toNat = s.blen.toNat ∧
      t = { s with ekey := t.ekey, ekeyLen := t.ekeyLen, mode := t.mode, status := t.status } := by
  obtain ⟨hkey, hlen⟩ := sessionKey_loaded s.ekey (State.length_derived ..) hle (by decide)
  exact ⟨_, kdfWith_ready hm cls dir label index w rfl (kdfBadLength_window (d := .ekey) (by decide) h1 hle),
    completedWith_ok rfl rfl, hkey, hlen, rfl⟩

/-- DEST = 1 loads AKEY (R164). -/
theorem kdfWith_akey (h1 : 1 ≤ s.blen.toNat) (hle : s.blen.toNat ≤ 64) :
    ∃ t, kdfWith Config.params cls dir label 1 index w s = .next t ∧ CompletedWith .ok s t ∧
      t.akey.toList = s.derived Config.params cls dir label index w ++ s.akey.toList.drop s.blen.toNat ∧
      t.akeyLen.toNat = s.blen.toNat ∧
      t = { s with akey := t.akey, akeyLen := t.akeyLen, mode := t.mode, status := t.status } := by
  obtain ⟨hkey, hlen⟩ := sessionKey_loaded s.akey (State.length_derived ..) hle (by decide)
  exact ⟨_, kdfWith_ready hm cls dir label index w rfl (kdfBadLength_window (d := .akey) (by decide) h1 hle),
    completedWith_ok rfl rfl, hkey, hlen, rfl⟩

/-- DEST = 2 loads SALT (R164). -/
theorem kdfWith_salt (h1 : 1 ≤ s.blen.toNat) (hle : s.blen.toNat ≤ 16) :
    ∃ t, kdfWith Config.params cls dir label 2 index w s = .next t ∧ CompletedWith .ok s t ∧
      t.salt.toList = s.derived Config.params cls dir label index w ++ s.salt.toList.drop s.blen.toNat ∧
      t.saltLen.toNat = s.blen.toNat ∧
      t = { s with salt := t.salt, saltLen := t.saltLen, mode := t.mode, status := t.status } := by
  obtain ⟨hkey, hlen⟩ := sessionKey_loaded s.salt (State.length_derived ..) hle (by decide)
  exact ⟨_, kdfWith_ready hm cls dir label index w rfl (kdfBadLength_window (d := .salt) (by decide) h1 hle),
    completedWith_ok rfl rfl, hkey, hlen, rfl⟩

/-- DEST = 3 stores to PKT: as many bytes as the range has, so they are read back there and no other byte changes (R164). -/
theorem kdfWith_pkt (hwf : s.pkt.wf = true) (hfits : RangeFits s) :
    ∃ t, kdfWith Config.params cls dir label 3 index w s = .next t ∧ CompletedWith .ok s t ∧
      t.pkt.load s.boff.toNat s.blen.toNat = s.derived Config.params cls dir label index w ∧
      (∀ a, a < s.boff.toNat ∨ s.boff.toNat + s.blen.toNat ≤ a → t.pkt.read a = s.pkt.read a) ∧
      t = { s with pkt := t.pkt, mode := t.mode, status := t.status } := by
  have hrange : kdfBadLength Config.params s .pkt = false := decide_eq_false (Nat.not_lt.2 hfits)
  refine ⟨_, kdfWith_ready hm cls dir label index w rfl hrange, completedWith_ok rfl rfl, ?_, fun a ha => ?_, rfl⟩
  · simpa [State.putDerived] using Memory.load_store_same hwf s.boff.toNat (s.derived Config.params cls dir label index w)
  · exact Memory.read_store_outside _ _ _ _ (by simpa using ha)

end

/-- A KDF command leaves STATUS and CMD to its completion, whatever its DEST. -/
theorem reports_of_kdfWith {i : Instr} {s : State} {cls : Cls} {dir : Dir} {label : Byte} {dest : BitVec 3} {index : Nat}
    {w : RWidth} {c : Code} (he : exec i s = kdfWith Config.params cls dir label dest index w s)
    (hc : (firstRaised (kdfDestChecks Config.params s dest)).getD .ok = c) : Reports i s c :=
  reports_of_runCommand (he.trans (kdfWith_eq ..)) (by rw [State.apply_kdfEffect]) (by rw [State.apply_kdfEffect]) hc

/-- Settles O19: KDF_RTP is `kdfWith` at IDX[47:0]. -/
theorem kdfRtpDerivesToTheDestination : Obligations.KdfRtpDerivesToTheDestination := by
  refine ⟨fun s dir label out hwf hm hout => ?_, fun s dir label dest => ?_⟩
  · rw [← State.idx_toNat] at hout
    subst hout
    exact ⟨kdfWith_ekey hm .rtp dir label _ .six, kdfWith_akey hm .rtp dir label _ .six, kdfWith_salt hm .rtp dir label _ .six,
      kdfWith_pkt hm .rtp dir label _ .six hwf⟩
  · exact reports_of_kdfWith (exec_kdfRtp dir label dest s) (kdfDestChecks_code s dest)

/-- Settles O20: KDF_RTCP is `kdfWith` at IDX[30:0]. -/
theorem kdfRtcpDerivesToTheDestination : Obligations.KdfRtcpDerivesToTheDestination := by
  refine ⟨fun s dir label out hwf hm hout => ?_, fun s dir label dest => ?_⟩
  · rw [← State.index31_toNat] at hout
    subst hout
    exact ⟨kdfWith_ekey hm .rtcp dir label _ _, kdfWith_akey hm .rtcp dir label _ _, kdfWith_salt hm .rtcp dir label _ _,
      kdfWith_pkt hm .rtcp dir label _ _ hwf⟩
  · exact reports_of_kdfWith (exec_kdfRtcp dir label dest s) (kdfDestChecks_code s dest)

end Sys2Proof.Machine

/-! PROOFS. The F8 mask (R183, R184), and the F8 keystream with its feedback (R186-R188). -/

namespace Sys2Proof.Machine

/-- A salt longer than the key is cut to it, a shorter one extended with 0x55 (R183). -/
theorem f8Mask_eq (salt : List Byte) (kl : Nat) : f8Mask salt kl = salt.take kl ++ List.replicate (kl - salt.length) 0x55 := by
  rw [f8Mask, List.take_append, List.take_replicate, Nat.min_eq_left (Nat.sub_le _ _)]

@[simp] theorem length_f8Mask (salt : List Byte) (kl : Nat) : (f8Mask salt kl).length = kl := by simp [f8Mask]

/-- Settles O43: the mask has the key's length, and its bytes are those of the salt followed by 0x55. -/
theorem f8MaskIsLeftAlignedSalt : Obligations.F8MaskIsLeftAlignedSalt := by
  refine ⟨f8Mask_eq, fun key salt => ⟨by simp [f8MaskedKey], fun k h h' => ?_⟩⟩
  have hmask : (f8Mask salt key.length)[k]'(by simpa using h) = if hs : k < salt.length then salt[k] else 0x55 := by
    simp only [f8Mask, List.getElem_take, List.getElem_append, List.getElem_replicate]
  rw [← hmask]
  exact List.getElem_zipWith

@[simp] theorem toList_xorBlock (a b : Block) : (xorBlock a b).toList = xorBytes a.toList b.toList :=
  toList_fit _ (by simp)

/-- The block-number term: bytes 14-15 are `j` in network order (R186). -/
theorem toList_f8J (j : Nat) : (f8J j).toList = zeros 14 ++ [BitVec.ofNat 8 (j / 256), BitVec.ofNat 8 j] := by
  have hj : beBytes 2 (j % 65536) = beBytes 2 j := beBytes_mod 2 j
  rw [f8J, toList_fit _ (by simp), hj]
  simp [beBytes]

theorem xorBlock_zeros (b : Block) : xorBlock b (fit 16 (zeros 16)) = b := by
  apply Vector.toList_inj.mp
  rw [toList_xorBlock, toList_fit _ (by simp), xorBytes_zeros_right _ _ (by simp)]

/-- The first keystream block is E(key, IV′): block number and S(-1) are zero (R187, R188). -/
theorem f8KeystreamBlock_zero (P : Params) (pu : Purpose) (key : List Byte) (ivp : Block) :
    f8KeystreamBlock P pu key ivp 0 (fit 16 (zeros 16)) = P.cipher key ivp := by
  have hj : f8J 0 = fit 16 (zeros 16) := by decide
  rw [f8KeystreamBlock, hj, xorBlock_zeros, xorBlock_zeros]
  rfl

/-- Bytes of `t` beyond the end of `s` take no part in the XOR. -/
theorem xorBytes_take_right (s t : List Byte) : xorBytes s (t.take s.length) = xorBytes s t := by
  have h := xorBytes_take s t s.length
  rw [List.take_length, List.take_of_length_le (by simp)] at h
  exact h.symm

theorem xorBytes_comm (s t : List Byte) : xorBytes s t = xorBytes t s :=
  List.zipWith_comm_of_comm fun a b => BitVec.xor_comm a b

/-- The bytes chained by a full block (R187): its keystream, which is its input XOR its output, or its ciphertext. -/
theorem toList_f8Chain (P : Params) (dir : Dir) {keystream : Block} {input output : List Byte} (hin : input.length = 16)
    (hout : output = xorBytes input keystream.toList) : (f8Chain P dir keystream input output).toList =
      match P.f8Feedback, dir with
      | .keystream, _ => xorBytes input output
      | .ciphertext, .encrypt => output
      | .ciphertext, .decrypt => input := by
  unfold f8Chain
  cases P.f8Feedback with
  | keystream => rw [hout, xorBytes_comm, xorBytes_comm input, xorBytes_xorBytes _ _ (by simp [hin])]
  | ciphertext =>
    cases dir with
    | encrypt => exact toList_fit _ (by simp [hout, hin])
    | decrypt => exact toList_fit _ hin

/-- Decryption chains what encryption of the same block chains: its input is the other's output. -/
theorem f8Chain_decrypt (P : Params) (keystream : Block) (plain cipher : List Byte) :
    f8Chain P .decrypt keystream cipher plain = f8Chain P .encrypt keystream plain cipher := by
  cases h : P.f8Feedback <;> simp only [f8Chain, h]

section
variable (P : Params) (pu : Purpose) (key : List Byte) (ivp : Block) (dir : Dir) (j : Nat) (fb : Block) (d : List Byte)

/-- One turn of the loop (R187). -/
theorem f8Blocks_succ (nb : Nat) : f8Blocks P pu key ivp dir j fb d (nb + 1) =
    xorBytes (d.take 16) (f8KeystreamBlock P pu key ivp j fb).toList ++
      f8Blocks P pu key ivp dir (j + 1) (f8Chain P dir (f8KeystreamBlock P pu key ivp j fb) (d.take 16)
        (xorBytes (d.take 16) (f8KeystreamBlock P pu key ivp j fb).toList)) (d.drop 16) nb := by
  simp only [f8Blocks, xorBytes_take_right]

/-- The loop's first 16 bytes are its first block. -/
theorem f8Blocks_take {nb : Nat} (h : d.length ≤ 16 * nb) : (f8Blocks P pu key ivp dir j fb d nb).take 16 =
    xorBytes (d.take 16) (f8KeystreamBlock P pu key ivp j fb).toList := by
  cases nb with
  | zero =>
    obtain rfl : d = [] := List.eq_nil_of_length_eq_zero (by omega)
    rfl
  | succ nb =>
    rw [f8Blocks_succ, List.take_append, List.take_of_length_le (by simp)]
    refine List.append_right_eq_self.2 (List.eq_nil_of_length_eq_zero ?_)
    simp only [List.length_take, length_f8Blocks, length_xorBytes, List.length_drop, Vector.length_toList]
    omega

/-- What follows the first 16 bytes is the loop from the next block on. -/
theorem f8Blocks_drop (nb : Nat) : (f8Blocks P pu key ivp dir j fb d nb).drop 16 =
    f8Blocks P pu key ivp dir (j + 1) (f8Chain P dir (f8KeystreamBlock P pu key ivp j fb) (d.take 16)
      (xorBytes (d.take 16) (f8KeystreamBlock P pu key ivp j fb).toList)) (d.drop 16) (nb - 1) := by
  cases nb with
  | zero => rfl
  | succ nb =>
    rw [f8Blocks_succ, List.drop_append, List.drop_eq_nil_of_le (by simp), List.nil_append, Nat.add_sub_cancel]
    rcases Nat.le_total 16 d.length with hd | hd
    · simp [hd]
    · have hrest : d.drop 16 = [] := List.drop_eq_nil_of_le hd
      have hnil : ∀ fb', f8Blocks P pu key ivp dir (j + 1) fb' [] nb = [] := fun fb' =>
        List.eq_nil_of_length_eq_zero (by simp [length_f8Blocks])
      rw [hrest, hnil, List.drop_nil]

/-- What follows the first `i` blocks is the loop from block `j + i` on, with some chaining value. -/
theorem f8Blocks_drop_blocks (nb i : Nat) : ∃ fb', (f8Blocks P pu key ivp dir j fb d nb).drop (16 * i) =
    f8Blocks P pu key ivp dir (j + i) fb' (d.drop (16 * i)) (nb - i) := by
  induction i with
  | zero => exact ⟨fb, rfl⟩
  | succ i ih =>
    obtain ⟨fb', ih⟩ := ih
    exact ⟨_, by rw [Nat.mul_succ, ← List.drop_drop, ih, f8Blocks_drop, List.drop_drop]; rfl⟩

/-- Decryption runs through the same chaining values as encryption, so each block is XORed with one keystream twice. -/
theorem f8Blocks_decrypt_encrypt (pu' : Purpose) {nb : Nat} (h : d.length ≤ 16 * nb) :
    f8Blocks P pu' key ivp .decrypt j fb (f8Blocks P pu key ivp .encrypt j fb d nb) nb = d := by
  induction nb generalizing j fb d with
  | zero => exact (List.eq_nil_of_length_eq_zero (by omega)).symm
  | succ nb ih =>
    have hblock : f8KeystreamBlock P pu' key ivp j fb = f8KeystreamBlock P pu key ivp j fb := rfl
    rw [f8Blocks_succ, f8Blocks_take _ _ _ _ _ _ _ _ h, f8Blocks_drop, hblock, xorBytes_xorBytes _ _ (by simp), f8Chain_decrypt,
      Nat.add_sub_cancel, ih _ _ _ (by simp; omega), List.take_append_drop]

/-- Blocks `j` and `j + 1` of F8Process: the first is XORed with some keystream, the second with the keystream that the first
one's chaining value gives (R187). -/
theorem f8Process_next_block : ∃ keystream : Block,
    slice (f8Process P pu key ivp d dir) (16 * j) 16 = xorBytes (slice d (16 * j) 16) keystream.toList ∧
    slice (f8Process P pu key ivp d dir) (16 * (j + 1)) 16 = xorBytes (slice d (16 * (j + 1)) 16)
      (f8KeystreamBlock P pu key ivp (j + 1) (f8Chain P dir keystream (slice d (16 * j) 16)
        (slice (f8Process P pu key ivp d dir) (16 * j) 16))).toList := by
  obtain ⟨fb', hrest⟩ := f8Blocks_drop_blocks P pu key ivp dir 0 (fit 16 (zeros 16)) d (ceilDiv d.length 16) j
  have hlen : (d.drop (16 * j)).length ≤ 16 * (ceilDiv d.length 16 - j) := by
    have := le_mul_ceilDiv d.length
    rw [List.length_drop]; omega
  have hblock := f8Blocks_take P pu key ivp dir (0 + j) fb' _ hlen
  refine ⟨f8KeystreamBlock P pu key ivp (0 + j) fb', ?_, ?_⟩
  · rw [slice, f8Process, hrest, hblock, slice]
  · rw [slice, slice, slice, slice, f8Process, Nat.mul_succ, ← List.drop_drop, hrest, hblock, f8Blocks_drop,
      f8Blocks_take _ _ _ _ _ _ _ _ (by simp only [List.length_drop] at hlen ⊢; omega), List.drop_drop, Nat.zero_add]

end

/-- Settles O37: the loop of F8Process block by block; the two directions chain the same values. -/
theorem f8DecryptionInvertsEncryption : Obligations.F8DecryptionInvertsEncryption := by
  intro P pu pu' key ivp d
  have hlen := le_mul_ceilDiv d.length
  refine ⟨?_, fun hP => ?_, length_f8Process P pu key ivp d, fun dir => ?_, ?_⟩
  · rw [f8Process, length_f8Process]
    exact f8Blocks_decrypt_encrypt P pu key ivp 0 _ d pu' hlen
  · exact f8Blocks_congr (f8Chain_keystream hP .encrypt .decrypt) pu pu' key ivp 0 _ d _
  · rw [f8Process, f8Blocks_take _ _ _ _ _ _ _ _ hlen, f8KeystreamBlock_zero]
  · rintro dir j out chained x rfl hj hchained hx
    obtain ⟨keystream, hblock, hnext⟩ := f8Process_next_block P pu key ivp dir j d
    have hfull : (slice d (16 * j) 16).length = 16 := by simp [slice]; omega
    have hchain := (toList_f8Chain P dir hfull hblock).trans hchained.symm
    have hinput : x = xorBlock (xorBlock ivp (f8J (j + 1))) (f8Chain P dir keystream (slice d (16 * j) 16)
        (slice (f8Process P pu key ivp d dir) (16 * j) 16)) := by
      apply Vector.toList_inj.mp
      rw [hx, toList_xorBlock, toList_xorBlock, toList_f8J, hchain]
      rfl
    rw [hnext, hinput]
    rfl

end Sys2Proof.Machine

/-! PROOFS. The AES-F8 commands F8_IV_RTP, F8_IV_RTCP, F8_IVPRIME and F8_XOR (R190-R193), and the IVs they build (R180-R185). -/

namespace Sys2Proof.Machine

theorem slice_load (m : Memory) (a n : Nat) {k l : Nat} (h : k + l ≤ n) : slice (m.load a n) k l = m.load (a + k) l := by
  obtain ⟨r, rfl⟩ := Nat.exists_eq_add_of_le h
  rw [slice, Nat.add_assoc, Memory.load_append, Memory.load_append, List.drop_left' (by simp), List.take_left' (by simp)]

/-- ROC = IDX[47:16] (R102). -/
theorem State.roc_toNat (s : State) : s.roc.toNat = s.idx.toNat / 2 ^ 16 := by
  have h := s.idx.isLt
  rw [State.roc, BitVec.extractLsb'_toNat, Nat.shiftRight_eq_div_pow, Nat.mod_eq_of_lt (by omega)]

/-- The SRTCP trailer word of E = IDX[31] and index IDX[30:0] is IDX_LO (R102, R181). -/
theorem trailerWord_idx (s : State) : trailerWord s.idxE s.index31 = s.idxLo := by
  apply BitVec.eq_of_getLsbD_eq
  intro k hk
  rw [trailerWord, BitVec.getLsbD_append]
  by_cases h : k < 31
  · simp [h, State.index31]
  · obtain rfl : k = 31 := by omega
    simp [State.idxE]

/-- The RTP IV of the packet's header and ROC (R180). -/
theorem toList_f8IvRtp (s : State) : (f8IvRtp s.rtpHeader s.roc).toList =
    [0] ++ s.pkt.load 1 11 ++ beBytes 4 ((s.idxHi.toNat * 2 ^ 32 + s.idxLo.toNat) / 2 ^ 16) := by
  rw [f8IvRtp, State.rtpHeader, slice_load _ _ _ (by decide), State.roc_toNat, State.idx_toNat, toList_fit _ (by simp)]

/-- The RTCP IV of IDX_LO and the packet's header, in either layout (R181, R182). -/
theorem toList_f8IvRtcp (P : Params) (s : State) : (f8IvRtcp P s.idxE s.index31 s.rtcpHeader).toList =
    match P.f8RtcpLayout with
    | .doc => beBytes 4 s.idxLo.toNat ++ s.pkt.load 0 8 ++ List.replicate 4 0
    | .rfc3711 => List.replicate 4 0 ++ beBytes 4 s.idxLo.toNat ++ s.pkt.load 0 8 := by
  rw [f8IvRtcp, State.rtcpHeader, slice_load _ _ _ (by decide), trailerWord_idx]
  cases P.f8RtcpLayout with
  | doc => exact toList_fit _ (by simp)
  | rfc3711 => exact toList_fit _ (by simp)

/-- IV′ is one cipher call under the masked key (R184, R185). -/
theorem State.ivPrime_eq {s : State} (h : s.ekeyLen.toNat ≤ 32) (P : Params) (dir : Dir) (cls : Cls) : s.ivPrime P dir cls =
    P.cipher (xorBytes (s.ekey.toList.take s.ekeyLen.toNat) (f8Mask (s.salt.toList.take s.saltLen.toNat) s.ekeyLen.toNat))
      s.ivreg := by
  have hkey : s.ekeyBytes.length = s.ekeyLen.toNat := by simp [State.ekeyBytes, h]
  rw [State.ivPrime, f8IvPrime, f8MaskedKey, hkey]
  rfl

/-- The code of F8_IV_RTP and F8_IV_RTCP (R190, R191). -/
theorem f8IvChecks_code (s : State) (header : Nat) : (firstRaised (f8IvChecks Config.params s header)).getD .ok =
    if Config.params.pktCap < s.pktLen.toNat ∨ s.pktLen.toNat < header then .badParameter else .ok := by
  refine Eq.trans ?_ (if_congr or_comm rfl rfl)
  simp only [f8IvChecks, firstRaised_cons, firstRaised_nil, Bool.or_eq_true, decide_eq_true_eq]
  exact apply_ite (Option.getD · Code.ok) _ _ _

/-- A packet that holds the header and fits the buffer passes the check (R190, R191). -/
theorem f8IvChecks_pass {s : State} {header : Nat} (hfits : PacketFits s) (hlen : header ≤ s.pktLen.toNat) :
    firstRaised (f8IvChecks Config.params s header) = none := by
  simp [f8IvChecks, State.packetLen, Nat.not_lt.2 hfits, Nat.not_lt.2 hlen]

/-- Settles O21: the check passes or reports, and the IV is the command's one write. -/
theorem f8IvRtpBuildsTheIv : Obligations.F8IvRtpBuildsTheIv := by
  refine ⟨by decide, fun s hfits hlen => ?_, fun s => ?_⟩
  · exact ⟨_, (exec_f8IvRtp s).trans (runCommand_of_none (f8IvChecks_pass hfits hlen)), completedWith_ok rfl rfl,
      toList_f8IvRtp s, rfl⟩
  · exact reports_of_runCommand (exec_f8IvRtp s) rfl rfl (f8IvChecks_code s 12)

/-- Settles O22: as F8_IV_RTP, with the RTCP header and IDX_LO. -/
theorem f8IvRtcpBuildsTheIv : Obligations.F8IvRtcpBuildsTheIv := by
  refine ⟨by decide, fun s hfits hlen => ?_, fun s => ?_⟩
  · exact ⟨_, (exec_f8IvRtcp s).trans (runCommand_of_none (f8IvChecks_pass hfits hlen)), completedWith_ok rfl rfl,
      toList_f8IvRtcp Config.params s, rfl⟩
  · exact reports_of_runCommand (exec_f8IvRtcp s) rfl rfl (f8IvChecks_code s 8)

/-- The code of F8_IVPRIME and F8_XOR, whose further checks are `rest` (R192, R193). -/
theorem f8KeyChecks_code (s : State) (rest : List Check) : (firstRaised (f8KeyChecks s ++ rest)).getD .ok =
    if s.ekeyLen = 0 ∨ s.saltLen = 0 then .nullArgument
    else if 32 < s.ekeyLen.toNat ∨ 16 < s.saltLen.toNat then .badParameter
    else (firstRaised rest).getD .ok := by
  simp only [f8KeyChecks, List.cons_append, List.nil_append, firstRaised_cons, Bool.or_eq_true, decide_eq_true_eq]
  split_ifs <;> rfl

/-- A loaded key and salt pass the checks of both commands, which leaves the further ones (R192, R193). -/
theorem f8KeyChecks_pass {s : State} (hkey : EkeyReady s) (hsalt : SaltReady s) (rest : List Check) :
    firstRaised (f8KeyChecks s ++ rest) = firstRaised rest := by
  obtain ⟨hkeyNe, hkeyLe, -⟩ := hkey
  obtain ⟨hsaltNe, hsaltLe⟩ := hsalt
  simp only [f8KeyChecks, List.cons_append, List.nil_append, firstRaised_cons, hkeyNe, hsaltNe, Nat.not_lt.2 hkeyLe,
    Nat.not_lt.2 hsaltLe, decide_false, Bool.or_self, Bool.false_eq_true, if_false]

/-- Settles O23: the checks pass or report, and IV′ is the command's one write. -/
theorem f8IvPrimeComputesIvPrime : Obligations.F8IvPrimeComputesIvPrime := by
  refine ⟨by decide, fun s dir cls hkey hsalt => ?_, fun s dir cls => ?_⟩
  · have ⟨_, hle, hsize⟩ := hkey
    have hpass : firstRaised (checksOf Config.params (.f8IvPrime dir cls) s) = none :=
      (f8KeyChecks_pass hkey hsalt _).trans (by simp [keyAccepted, hsize])
    exact ⟨_, (exec_f8IvPrime dir cls s).trans (runCommand_of_none hpass), completedWith_ok rfl rfl,
      State.ivPrime_eq hle Config.params dir cls, rfl⟩
  · refine reports_of_runCommand (exec_f8IvPrime dir cls s) rfl rfl ((f8KeyChecks_code s _).trans ?_)
    simp only [firstRaised_cons, firstRaised_nil, keyAccepted, Bool.not_eq_true']
    split_ifs <;> rfl

/-- A load of as many bytes as were stored gives them back. -/
theorem Memory.load_store_of_length {m : Memory} (hm : m.wf = true) (a : Nat) {bs : List Byte} {n : Nat} (h : bs.length = n) :
    (m.store a bs).load a n = bs :=
  h ▸ Memory.load_store_same hm a bs

/-- Settles O24: F8Process keeps the length, so the range is read back and every other byte is left alone. -/
theorem f8XorTransformsTheRange : Obligations.F8XorTransformsTheRange := by
  refine ⟨by decide, fun s dir cls hwf hkey hsalt hfits => ?_, fun s dir cls => ?_⟩
  · have ⟨_, hle, hsize⟩ := hkey
    have hpass : firstRaised (checksOf Config.params (.f8Xor dir cls) s) = none :=
      (f8KeyChecks_pass hkey hsalt _).trans (by simp [keyAccepted, hsize, Nat.not_lt.2 hfits])
    refine ⟨_, (exec_f8Xor dir cls s).trans (runCommand_of_none hpass), completedWith_ok rfl rfl,
      State.ivPrime_eq hle Config.params dir cls, ?_, fun a ha => ?_, rfl⟩
    · exact Memory.load_store_of_length hwf _ (by simp)
    · exact Memory.read_store_outside _ _ _ _ (by simpa using ha)
  · refine reports_of_runCommand (exec_f8Xor dir cls s) rfl rfl ((f8KeyChecks_code s _).trans ?_)
    simp only [firstRaised_cons, firstRaised_nil, keyAccepted, Bool.not_eq_true', decide_eq_true_eq]
    split_ifs <;> rfl

end Sys2Proof.Machine

/-! PROOFS. The RTP header's length (R211), the packet index (R212), the payload transform (R215) and its inverse. -/

namespace Sys2Proof.Machine

/-- Which headers R211 gives a length, and which: the branches of the parse, without and with an extension. -/
theorem rtpHdrLen_eq_some_iff {p : Memory} {limit h cc ext : Nat} (hcc : cc = (p.read 0).toNat % 16)
    (hext : ext = beRead (p.load (12 + 4 * cc + 2) 2)) :
    rtpHdrLen p limit = some h ↔
      12 ≤ limit ∧ 12 + 4 * cc ≤ limit ∧
      (((p.read 0).getLsbD 4 = false ∧ h = 12 + 4 * cc) ∨
       ((p.read 0).getLsbD 4 = true ∧ 12 + 4 * cc + 4 ≤ limit ∧ h = 12 + 4 * cc + 4 + 4 * ext ∧ h ≤ limit)) := by
  have hlow : ((p.read 0).extractLsb' 0 4).toNat = cc := by simp [hcc]
  simp only [rtpHdrLen, hlow, ← hext, Option.ite_none_left_eq_some]
  cases (p.read 0).getLsbD 4 with
  | false =>
    simp only [Bool.false_eq_true, if_false, true_and, false_and, or_false, Option.some.injEq]
    omega
  | true =>
    simp only [Bool.true_eq_false, if_true, true_and, false_and, false_or, Option.ite_none_left_eq_some, Option.some.injEq]
    omega

/-- Settles O44: the equivalence of `rtpHdrLen_eq_some_iff`. -/
theorem rtpHeaderLengthFollowsTheHeader : Obligations.RtpHeaderLengthFollowsTheHeader :=
  fun _ _ _ _ _ => rtpHdrLen_eq_some_iff

/-- The parse looks only at the header that it finds (R211). -/
theorem rtpHdrLen_congr {p p' : Memory} {limit h : Nat} (hp : rtpHdrLen p limit = some h)
    (hread : ∀ a, a < h → p'.read a = p.read a) : rtpHdrLen p' limit = some h := by
  have hfirst : p'.read 0 = p.read 0 := hread 0 (by have := rtpHdrLen_bounds hp; omega)
  rw [rtpHdrLen_eq_some_iff rfl rfl] at hp ⊢
  rw [hfirst]
  obtain ⟨hlimit, hcsrc, hplain | ⟨hx, hext, hlen, hle⟩⟩ := hp
  · exact ⟨hlimit, hcsrc, .inl hplain⟩
  · have hload := Memory.load_congr (a := 12 + 4 * ((p.read 0).toNat % 16) + 2) (n := 2) fun k hk =>
      hread (12 + 4 * ((p.read 0).toNat % 16) + 2 + k) (by omega)
    exact ⟨hlimit, hcsrc, .inr ⟨hx, hext, hload ▸ hlen, hle⟩⟩

/-- The upper 32 bits of the packet index are the ROC (R212). -/
theorem State.rtpIndex_roc (s : State) : s.rtpIndex.extractLsb' 16 32 = s.roc := by
  simp (disch := decide) only [State.rtpIndex, BitVec.extractLsb'_append_eq_of_le, Nat.sub_self, BitVec.extractLsb'_eq_self]

/-- CFG.ENC by number and by name (R42). -/
theorem Cfg.alg_eq (c : Cfg) : (c.enc = 0 → c.alg = .none) ∧ (c.enc = 1 → c.alg = .aesCm) ∧ (c.enc = 2 → c.alg = .aesF8) := by
  refine ⟨fun h => ?_, fun h => ?_, fun h => ?_⟩ <;> rw [Cfg.alg, h] <;> rfl

/-- Settles O31: the configured cipher's branch, with the ROC as the index's upper part. -/
theorem payloadTransformIsTheConfiguredCipher : Obligations.PayloadTransformIsTheConfiguredCipher := by
  rintro s dir i31 e data key salt rfl rfl
  obtain ⟨rtpNone, rtpCm, rtpF8⟩ := s.cfgRtp.alg_eq
  obtain ⟨rtcpNone, rtcpCm, rtcpF8⟩ := s.cfgRtcp.alg_eq
  rw [State.srtpXform, State.srtcpXform, State.rtpIndex_roc]
  refine ⟨fun h => ?_, fun h => ?_, fun h => ?_, fun h => ?_, fun h => ?_, fun h => ?_⟩
  · rw [rtpNone h]; rfl
  · rw [rtpCm h]; rfl
  · rw [rtpF8 h]; rfl
  · rw [rtcpNone h]; rfl
  · rw [rtcpCm h]; rfl
  · rw [rtcpF8 h]; rfl

/-- Decryption undoes encryption, whatever the cipher: CmXor is an involution, F8 decryption inverts encryption (R136, R188). -/
theorem payloadXform_decrypt_encrypt (P : Params) (alg : Enc) (cls : Cls) (key salt : List Byte) (cmIv f8Iv : Block)
    (data : List Byte) : payloadXform P alg cls .decrypt key salt cmIv f8Iv
      (payloadXform P alg cls .encrypt key salt cmIv f8Iv data) = data := by
  cases alg with
  | none | reserved => rfl
  | aesCm => exact cmXor_cmXor P _ key cmIv _ data
  | aesF8 => exact (f8DecryptionInvertsEncryption P _ _ key _ data).1

section
variable {s t : State} (hkey : t.ekeyBytes = s.ekeyBytes) (hsalt : t.saltBytes = s.saltBytes) (P : Params) (dir : Dir)
include hkey hsalt

/-- The SRTP transform takes from PKT the header image only (R212, R215). -/
theorem srtpXform_congr (hcfg : t.cfgRtp = s.cfgRtp) (hroc : t.roc = s.roc) (hread : ∀ a, a < 12 → t.pkt.read a = s.pkt.read a) :
    t.srtpXform P dir = s.srtpXform P dir := by
  have hload : ∀ {a n}, a + n ≤ 12 → t.pkt.load a n = s.pkt.load a n := fun h => Memory.load_congr fun k hk => hread _ (by omega)
  have hseq : t.rtpSeq = s.rtpSeq := by rw [State.rtpSeq, State.rtpSeq, hload (by decide)]
  have hssrc : t.rtpSsrc = s.rtpSsrc := by rw [State.rtpSsrc, State.rtpSsrc, hload le_rfl]
  have hheader : t.rtpHeader = s.rtpHeader := hload le_rfl
  funext data
  simp only [State.srtpXform, State.rtpIndex, hkey, hsalt, hcfg, hroc, hseq, hssrc, hheader]

/-- The SRTCP transform takes from PKT the header image only (R212, R215). -/
theorem srtcpXform_congr (hcfg : t.cfgRtcp = s.cfgRtcp) (hread : ∀ a, a < 8 → t.pkt.read a = s.pkt.read a) :
    t.srtcpXform P dir = s.srtcpXform P dir := by
  have hload : ∀ {a n}, a + n ≤ 8 → t.pkt.load a n = s.pkt.load a n := fun h => Memory.load_congr fun k hk => hread _ (by omega)
  have hssrc : t.rtcpSsrc = s.rtcpSsrc := by rw [State.rtcpSsrc, State.rtcpSsrc, hload le_rfl]
  have hheader : t.rtcpHeader = s.rtcpHeader := hload le_rfl
  funext i31 e data
  simp only [State.srtcpXform, hkey, hsalt, hcfg, hssrc, hheader]

end

end Sys2Proof.Machine

/-! PROOFS. The framer's checks (R214, R220-R222, R230-R232): which code each command reports, and when it passes. -/

namespace Sys2Proof.Machine

section
variable {c : Cfg} {s : State} {rest : List Check}

/-- The code of a list of checks, its first check taken off (R273). -/
theorem getD_firstRaised_cons (p : Prop) [Decidable p] (code d : Code) :
    (firstRaised ((decide p, code) :: rest)).getD d = if p then code else (firstRaised rest).getD d := by
  simp only [firstRaised_cons, decide_eq_true_eq]
  exact apply_ite (Option.getD · d) _ _ _

/-- Checks that all raise an error pass exactly when the command reports OK. -/
theorem firstRaised_eq_none_iff_code {checks : List Check} (hne : checks.all (fun x => decide (x.2 ≠ .ok)) = true) :
    firstRaised checks = none ↔ (firstRaised checks).getD .ok = .ok := by
  cases h : firstRaised checks with
  | none => simp
  | some code => simpa using List.all_eq_true.1 hne _ (firstRaised_mem h)

/-- One check's place in a chain of codes that ends in OK. -/
theorem ite_code_eq_ok_iff {p : Prop} [Decidable p] {code x : Code} (hne : code ≠ .ok) :
    (if p then code else x) = .ok ↔ ¬ p ∧ x = .ok := by
  split_ifs with h <;> simp [h, hne]

/-- The code of a command that begins with FrCheckFull (R214). -/
theorem frCheckFull_append_code :
    (firstRaised (frCheckFull Config.params s c ++ rest)).getD .ok = (framerCode c s).getD ((firstRaised rest).getD .ok) := by
  rw [firstRaised_append_getD, firstRaised_frCheckFull]

/-- The code of a command that begins with FrCheckParse (R214). -/
theorem frCheckParse_append_code :
    (firstRaised (frCheckParse Config.params s c ++ rest)).getD .ok = (parseCode c s).getD ((firstRaised rest).getD .ok) := by
  rw [firstRaised_append_getD, firstRaised_frCheckParse]

/-- FrCheckFull's part in a chain of codes that ends in OK. -/
theorem framerCode_getD_eq_ok_iff {x : Code} : (framerCode c s).getD x = .ok ↔ FramerReady c s ∧ x = .ok := by
  rw [← framerCode_eq_none_iff]
  cases h : framerCode c s with
  | none => simp
  | some code =>
    rw [← firstRaised_frCheckFull] at h
    have hne : (frCheckFull Config.params s c).all (fun x => decide (x.2 ≠ .ok)) = true := rfl
    simpa using List.all_eq_true.1 hne _ (firstRaised_mem h)

/-- FrCheckParse's part in a chain of codes that ends in OK. -/
theorem parseCode_getD_eq_ok_iff {x : Code} :
    (parseCode c s).getD x = .ok ↔ ((c.mkiEn = true → c.mkiLen.toNat ≤ 16) ∧ PacketFits s) ∧ x = .ok := by
  unfold parseCode
  split_ifs <;> simp_all

end

/-! The code of each command, in the order of its rule. -/

section
variable (s : State)

theorem rtpHdrLen_isNone (p : Memory) (limit : Nat) : (rtpHdrLen p limit).isNone = decide (rtpHdrLen p limit = none) := by
  cases rtpHdrLen p limit <;> rfl

theorem srtpProtectChecks_code : (firstRaised (srtpProtectChecks Config.params s)).getD .ok = (framerCode s.cfgRtp s).getD
    (if Config.params.pktCap - s.pktLen.toNat < s.cfgRtp.m + s.cfgRtp.t then .insufficientBufferSpace
    else if rtpHdrLen s.pkt s.pktLen.toNat = none then .badParameter
    else .ok) := by
  rw [srtpProtectChecks, frCheckFull_append_code, rtpHdrLen_isNone, getD_firstRaised_cons, getD_firstRaised_cons]
  rfl

theorem srtpUnprotectChecks_code : (firstRaised (srtpUnprotectChecks Config.params s)).getD .ok = (framerCode s.cfgRtp s).getD
    (if s.pktLen.toNat < 12 + s.cfgRtp.m + s.cfgRtp.t then .badParameter
    else if ¬ TagMatches s.cfgRtp s (s.pkt.load 0 (s.footerStart s.cfgRtp) ++ beBytes 4 s.roc.toNat) then .authFailure
    else if rtpHdrLen s.pkt (s.footerStart s.cfgRtp) = none then .badParameter
    else .ok) := by
  rw [srtpUnprotectChecks, frCheckFull_append_code, State.srtpTooShort, getD_firstRaised_cons]
  congr 1
  refine ite_congr rfl (fun _ => rfl) fun hlen => ?_
  rw [tagMismatch_eq _ _ _ (by omega), rtpHdrLen_isNone, getD_firstRaised_cons,
    getD_firstRaised_cons]
  rfl

theorem srtpParseChecks_code : (firstRaised (srtpParseChecks Config.params s)).getD .ok = (parseCode s.cfgRtp s).getD
    (if s.pktLen.toNat < 12 + s.cfgRtp.m + s.cfgRtp.t then .badParameter
    else if rtpHdrLen s.pkt (s.footerStart s.cfgRtp) = none then .badParameter
    else .ok) := by
  rw [srtpParseChecks, frCheckParse_append_code, State.srtpTooShort, rtpHdrLen_isNone, getD_firstRaised_cons,
    getD_firstRaised_cons]
  rfl

theorem srtcpProtectChecks_code : (firstRaised (srtcpProtectChecks Config.params s)).getD .ok = (framerCode s.cfgRtcp s).getD
    (if Config.params.pktCap - s.pktLen.toNat < 4 + s.cfgRtcp.m + s.cfgRtcp.t then .insufficientBufferSpace
    else if s.pktLen.toNat < 8 then .badParameter
    else .ok) := by
  rw [srtcpProtectChecks, frCheckFull_append_code, getD_firstRaised_cons, getD_firstRaised_cons]
  rfl

theorem srtcpUnprotectChecks_code : (firstRaised (srtcpUnprotectChecks Config.params s)).getD .ok =
    (framerCode s.cfgRtcp s).getD
      (if s.pktLen.toNat < 12 + s.cfgRtcp.m + s.cfgRtcp.t then .badParameter
      else if ¬ TagMatches s.cfgRtcp s (s.pkt.load 0 (s.footerStart s.cfgRtcp)) then .authFailure
      else if s.srtcpTrailerIn.getLsbD 31 = true ∧ s.cfgRtcp.enc = 0 then .badParameter
      else .ok) := by
  have henc : (s.srtcpEIn && decide (s.cfgRtcp.enc = 0)) = decide (s.srtcpTrailerIn.getLsbD 31 = true ∧ s.cfgRtcp.enc = 0) := by
    simp [State.srtcpEIn]
  rw [srtcpUnprotectChecks, frCheckFull_append_code, State.srtcpTooShort, getD_firstRaised_cons]
  congr 1
  refine ite_congr rfl (fun _ => rfl) fun hlen => ?_
  rw [tagMismatch_eq _ _ _ (by omega), henc, getD_firstRaised_cons, getD_firstRaised_cons]
  rfl

theorem srtcpParseChecks_code : (firstRaised (srtcpParseChecks Config.params s)).getD .ok = (parseCode s.cfgRtcp s).getD
    (if s.pktLen.toNat < 12 + s.cfgRtcp.m + s.cfgRtcp.t then .badParameter else .ok) := by
  rw [srtcpParseChecks, frCheckParse_append_code, State.srtcpTooShort, getD_firstRaised_cons]
  rfl

/-! What passes: the code is OK. -/

variable {s}

theorem srtpProtectChecks_pass : firstRaised (srtpProtectChecks Config.params s) = none ↔
    FramerReady s.cfgRtp s ∧ s.cfgRtp.m + s.cfgRtp.t ≤ Config.params.pktCap - s.pktLen.toNat ∧
      ∃ h, rtpHdrLen s.pkt s.pktLen.toNat = some h := by
  rw [firstRaised_eq_none_iff_code rfl, srtpProtectChecks_code, framerCode_getD_eq_ok_iff, ite_code_eq_ok_iff (by decide),
    ite_code_eq_ok_iff (by decide), Nat.not_lt, ← Option.ne_none_iff_exists']
  simp only [and_true, ne_eq]

theorem srtpUnprotectChecks_pass : firstRaised (srtpUnprotectChecks Config.params s) = none ↔
    FramerReady s.cfgRtp s ∧ 12 + s.cfgRtp.m + s.cfgRtp.t ≤ s.pktLen.toNat ∧
      TagMatches s.cfgRtp s (s.pkt.load 0 (s.footerStart s.cfgRtp) ++ beBytes 4 s.roc.toNat) ∧
      ∃ h, rtpHdrLen s.pkt (s.footerStart s.cfgRtp) = some h := by
  rw [firstRaised_eq_none_iff_code rfl, srtpUnprotectChecks_code, framerCode_getD_eq_ok_iff, ite_code_eq_ok_iff (by decide),
    ite_code_eq_ok_iff (by decide), ite_code_eq_ok_iff (by decide), Nat.not_lt, not_not, ← Option.ne_none_iff_exists']
  simp only [and_true, ne_eq]

theorem srtpParseChecks_pass : firstRaised (srtpParseChecks Config.params s) = none ↔
    ((s.cfgRtp.mkiEn = true → s.cfgRtp.mkiLen.toNat ≤ 16) ∧ PacketFits s) ∧
      12 + s.cfgRtp.m + s.cfgRtp.t ≤ s.pktLen.toNat ∧
      ∃ h, rtpHdrLen s.pkt (s.footerStart s.cfgRtp) = some h := by
  rw [firstRaised_eq_none_iff_code rfl, srtpParseChecks_code, parseCode_getD_eq_ok_iff, ite_code_eq_ok_iff (by decide),
    ite_code_eq_ok_iff (by decide), Nat.not_lt, ← Option.ne_none_iff_exists']
  simp only [and_true, ne_eq]

theorem srtcpProtectChecks_pass : firstRaised (srtcpProtectChecks Config.params s) = none ↔
    FramerReady s.cfgRtcp s ∧ 4 + s.cfgRtcp.m + s.cfgRtcp.t ≤ Config.params.pktCap - s.pktLen.toNat ∧ 8 ≤ s.pktLen.toNat := by
  rw [firstRaised_eq_none_iff_code rfl, srtcpProtectChecks_code, framerCode_getD_eq_ok_iff, ite_code_eq_ok_iff (by decide),
    ite_code_eq_ok_iff (by decide), Nat.not_lt, Nat.not_lt]
  simp only [and_true]

theorem srtcpUnprotectChecks_pass : firstRaised (srtcpUnprotectChecks Config.params s) = none ↔
    FramerReady s.cfgRtcp s ∧ 12 + s.cfgRtcp.m + s.cfgRtcp.t ≤ s.pktLen.toNat ∧
      TagMatches s.cfgRtcp s (s.pkt.load 0 (s.footerStart s.cfgRtcp)) ∧
      (s.srtcpTrailerIn.getLsbD 31 = true → s.cfgRtcp.enc ≠ 0) := by
  rw [firstRaised_eq_none_iff_code rfl, srtcpUnprotectChecks_code, framerCode_getD_eq_ok_iff, ite_code_eq_ok_iff (by decide),
    ite_code_eq_ok_iff (by decide), ite_code_eq_ok_iff (by decide), Nat.not_lt, not_not, not_and]
  simp only [and_true, ne_eq]

theorem srtcpParseChecks_pass : firstRaised (srtcpParseChecks Config.params s) = none ↔
    ((s.cfgRtcp.mkiEn = true → s.cfgRtcp.mkiLen.toNat ≤ 16) ∧ PacketFits s) ∧
      12 + s.cfgRtcp.m + s.cfgRtcp.t ≤ s.pktLen.toNat := by
  rw [firstRaised_eq_none_iff_code rfl, srtcpParseChecks_code, parseCode_getD_eq_ok_iff, ite_code_eq_ok_iff (by decide),
    Nat.not_lt]
  simp only [and_true]

end

end Sys2Proof.Machine

/-! PROOFS. What the framer commands of both classes share: parts of one store, readiness, MKI and tag (R43, R47, R214, R216). -/

namespace Sys2Proof.Machine

/-- Two adjacent stores are one. -/
theorem Memory.store_store_adjacent (m : Memory) (a : Nat) (xs ys : List Byte) :
    (m.store a xs).store (a + xs.length) ys = m.store a (xs ++ ys) := by
  induction xs generalizing m a with
  | nil => rfl
  | cons x xs ih => rw [List.cons_append, Memory.store, Memory.store, ← ih, List.length_cons, Nat.add_assoc, Nat.add_comm 1]

/-- A part of the stored bytes, loaded from its place. -/
theorem Memory.load_store_part {m : Memory} (hm : m.wf = true) {a b n : Nat} {bs xs ys zs : List Byte}
    (hbs : bs = xs ++ ys ++ zs) (hb : b = a + xs.length) (hn : ys.length = n) : (m.store a bs).load b n = ys := by
  subst hbs hb hn
  rw [← Memory.store_store_adjacent, Memory.load_store_disjoint _ _ _ _ _ (.inl (by simp; omega)), ← Memory.store_store_adjacent]
  exact Memory.load_store_same (Memory.wf_store hm _ _) _ _

theorem Cfg.m_le {c : Cfg} (h : c.mkiEn = true → c.mkiLen.toNat ≤ 16) : c.m ≤ 16 := by
  unfold Cfg.m
  split
  · exact h ‹_›
  · exact Nat.zero_le 16

theorem footerStart_eq {c : Cfg} {s : State} {lb : Nat}
    (hlb : lb + c.m + c.t = s.pktLen.toNat) : s.footerStart c = lb := by
  simp only [State.footerStart, State.packetLen]; omega

theorem FramerReady.mkiLen_le {c : Cfg} {s : State} (h : FramerReady c s) : c.mkiEn = true → c.mkiLen.toNat ≤ 16 := by
  obtain ⟨-, -, hmki, -⟩ := h
  exact hmki

theorem FramerReady.fits {c : Cfg} {s : State} (h : FramerReady c s) : s.pktLen.toNat ≤ Config.params.pktCap := by
  obtain ⟨-, -, -, hfits, -⟩ := h
  exact hfits

/-- A ready class's MKI bytes are there to append (R43, R46). -/
theorem length_mkiOut {c : Cfg} {s : State} (h : FramerReady c s) : (s.mki.toList.take c.m).length = c.m := by
  simp [FramerReady.m_le h]

theorem rtpHdrLenOr0_eq {p : Memory} {limit h : Nat} (hh : rtpHdrLen p limit = some h) : rtpHdrLenOr0 p limit = h := by
  rw [rtpHdrLenOr0, hh, Option.getD_some]

/-- A received MKI, padded with zeros (R47). -/
theorem toList_rxMkiOf {bs : List Byte} {n : Nat} (hlen : bs.length = n) (hn : n ≤ 16) :
    (rxMkiOf bs).toList = bs ++ List.replicate (16 - n) 0 := by
  rw [rxMkiOf, toList_fit_eq_take, List.take_append, List.take_of_length_le (by omega), hlen, zeros, List.take_replicate,
    Nat.min_eq_left (Nat.sub_le 16 n)]

/-- A tag that was stored where the receiver looks for it matches (R216, R221, R231). -/
theorem tagMatches_of_load {c : Cfg} {t : State} {msg : List Byte}
    (h : t.pkt.load (t.pktLen.toNat - c.t) c.t = authTag Config.params c t.akeyBytes msg) : TagMatches c t msg := by
  by_cases hauth : c.auth = 0
  · exact .inl hauth
  · rw [authTag, if_neg hauth] at h
    exact .inr h.symm

/-- A ready class stays ready when the packet changes and still fits (R214). -/
theorem FramerReady.congr {c : Cfg} {s t : State} (h : FramerReady c s) (hfits : t.pktLen.toNat ≤ Config.params.pktCap)
    (hekey : t.ekeyLen = s.ekeyLen) (hsalt : t.saltLen = s.saltLen) (hakey : t.akeyLen = s.akeyLen) : FramerReady c t := by
  obtain ⟨henc, hprefix, hmki, -, hkeys, hauth⟩ := h
  refine ⟨henc, hprefix, hmki, hfits, ?_, ?_⟩
  · simpa only [EkeyReadyWith, SaltReady, hekey, hsalt] using hkeys
  · simpa only [hakey] using hauth

end Sys2Proof.Machine

/-! PROOFS. The SRTP commands (R220-R222): where protect puts payload, MKI and tag, and what unprotect and parse report. -/

namespace Sys2Proof.Machine

/-! SRTP_PROTECT (R220). -/

section
variable {s : State} (hready : FramerReady s.cfgRtp s)
include hready

theorem srtpProtected_fits (hroom : s.cfgRtp.m + s.cfgRtp.t ≤ Config.params.pktCap - s.pktLen.toNat) :
    s.pktLen.toNat + s.cfgRtp.m + s.cfgRtp.t ≤ Config.params.pktCap := by
  have hfits := hready.fits
  omega

/-- The framed packet's length fits PKT_LEN, since it fits the buffer (R7, R220). -/
theorem srtpProtected_pktLen (hroom : s.cfgRtp.m + s.cfgRtp.t ≤ Config.params.pktCap - s.pktLen.toNat) (P : Params) (h : Nat) :
    (s.srtpProtected P h).pktLen.toNat = s.pktLen.toNat + s.cfgRtp.m + s.cfgRtp.t := by
  have hfits := srtpProtected_fits hready hroom
  have hcap := pktCap_bounds
  exact Nat.mod_eq_of_lt (b := 2 ^ 16) (by simp only [State.packetLen]; omega)

variable {h : Nat} (hh : rtpHdrLen s.pkt s.pktLen.toNat = some h) (P : Params)
include hh

theorem srtpProtected_results (hroom : s.cfgRtp.m + s.cfgRtp.t ≤ Config.params.pktCap - s.pktLen.toNat) :
    SrtpResultsAre (s.srtpProtected P h).res s.cfgRtp h (s.pktLen.toNat - h) s.pktLen.toNat (s.pktLen.toNat + s.cfgRtp.m) s.roc
      (beRead (s.pkt.load 2 2)) := by
  have hbounds := rtpHdrLen_bounds hh
  have hfits := srtpProtected_fits hready hroom
  have hcap := pktCap_bounds
  exact srtpResults_are s s.cfgRtp h (s.pktLen.toNat - h) s.pktLen.toNat (s.pktLen.toNat + s.cfgRtp.m) (by omega) (by omega)
    (by omega) (by omega)

/-- Payload, MKI and tag are stored one after another (R220). -/
theorem srtpProtected_pkt : (s.srtpProtected P h).pkt = s.pkt.store h
    (s.srtpXform P .encrypt (s.pkt.load h (s.pktLen.toNat - h)) ++ s.mki.toList.take s.cfgRtp.m ++ s.srtpTag P h) := by
  have hpay : h + (s.srtpXform P .encrypt (s.pkt.load h (s.pktLen.toNat - h))).length = s.pktLen.toNat := by
    have := rtpHdrLen_bounds hh
    simp; omega
  rw [← Memory.store_store_adjacent, ← Memory.store_store_adjacent, List.length_append, ← Nat.add_assoc, hpay,
    length_mkiOut hready]
  rfl

theorem srtpProtected_read_outside {a : Nat} (ha : a < h ∨ s.pktLen.toNat + s.cfgRtp.m + s.cfgRtp.t ≤ a) :
    (s.srtpProtected P h).pkt.read a = s.pkt.read a := by
  have := rtpHdrLen_bounds hh
  rw [srtpProtected_pkt hready hh]
  refine Memory.read_store_outside _ _ _ _ (ha.imp_right fun hb => ?_)
  simp only [List.length_append, length_srtpXform, Memory.length_load, length_mkiOut hready, State.srtpTag, length_authTag]
  omega

variable (hwf : s.pkt.wf = true)
include hwf

theorem srtpProtected_wf : (s.srtpProtected P h).pkt.wf = true := by
  rw [srtpProtected_pkt hready hh]
  exact Memory.wf_store hwf _ _

theorem srtpProtected_payload : (s.srtpProtected P h).pkt.load h (s.pktLen.toNat - h) =
    s.srtpXform P .encrypt (s.pkt.load h (s.pktLen.toNat - h)) := by
  rw [srtpProtected_pkt hready hh]
  exact Memory.load_store_part (xs := []) hwf (List.append_assoc ..) rfl (by simp)

theorem srtpProtected_mki : (s.srtpProtected P h).pkt.load s.pktLen.toNat s.cfgRtp.m = s.mki.toList.take s.cfgRtp.m := by
  have := rtpHdrLen_bounds hh
  rw [srtpProtected_pkt hready hh]
  exact Memory.load_store_part hwf rfl (by simp; omega) (length_mkiOut hready)

theorem srtpProtected_tag : (s.srtpProtected P h).pkt.load (s.pktLen.toNat + s.cfgRtp.m) s.cfgRtp.t = s.srtpTag P h := by
  have := rtpHdrLen_bounds hh
  rw [srtpProtected_pkt hready hh]
  exact Memory.load_store_part (zs := []) hwf (List.append_nil _).symm (by simp [length_mkiOut hready]; omega)
    (length_authTag ..)

/-- The tag is the one of the framed packet's authenticated portion, which it follows (R216, R220). -/
theorem srtpProtected_tagMatches (hroom : s.cfgRtp.m + s.cfgRtp.t ≤ Config.params.pktCap - s.pktLen.toNat) :
    TagMatches s.cfgRtp (s.srtpProtected Config.params h)
      ((s.srtpProtected Config.params h).pkt.load 0 s.pktLen.toNat ++ beBytes 4 s.roc.toNat) := by
  have hauth : (s.srtpProtected Config.params h).pkt.load 0 s.pktLen.toNat =
      (s.srtpProtectedBody Config.params h).load 0 s.pktLen.toNat :=
    Memory.load_store_disjoint _ _ _ _ _ (.inl (by simp [State.packetLen]))
  apply tagMatches_of_load
  rw [srtpProtected_pktLen hready hroom, Nat.add_sub_cancel, srtpProtected_tag hready hh _ hwf, hauth]
  rfl

end

/-- Settles O25: the stored parts are read back, each from its place. -/
theorem srtpProtectFramesThePacket : Obligations.SrtpProtectFramesThePacket := by
  refine ⟨by decide, fun s h hwf hready hroom hh => ?_, fun s => ?_⟩
  · have hexec := (exec_srtpProtect s).trans (runCommand_of_none (srtpProtectChecks_pass.2 ⟨hready, hroom, h, hh⟩))
    rw [State.packetLen, rtpHdrLenOr0_eq hh] at hexec
    exact ⟨_, hexec, completedWith_ok rfl rfl, fun a ha => srtpProtected_read_outside hready hh _ (.inl ha),
      srtpProtected_payload hready hh _ hwf, srtpProtected_mki hready hh _ hwf, srtpProtected_tagMatches hready hh hwf hroom,
      fun a ha => srtpProtected_read_outside hready hh _ (.inr ha),
      srtpProtected_pktLen hready hroom Config.params h, srtpProtected_results hready hh Config.params hroom, rfl⟩
  · exact reports_of_runCommand (exec_srtpProtect s) rfl rfl (srtpProtectChecks_code s)

/-! SRTP_UNPROTECT and SRTP_PARSE (R221, R222). -/

/-- Both report the MKI, where it was found, and the results (R221, R222). -/
theorem srtpReport_are {s : State} {h lb : Nat} (hm : s.cfgRtp.m ≤ 16) (hlb : lb + s.cfgRtp.m + s.cfgRtp.t = s.pktLen.toNat)
    (hh : rtpHdrLen s.pkt lb = some h) :
    (s.srtpReport h).rxMki.toList = s.pkt.load lb s.cfgRtp.m ++ List.replicate (16 - s.cfgRtp.m) 0 ∧
      SrtpResultsAre (s.srtpReport h).res s.cfgRtp h (lb - h) lb (lb + s.cfgRtp.m) s.roc (beRead (s.pkt.load 2 2)) := by
  have hbounds := rtpHdrLen_bounds hh
  have hlt := s.pktLen.isLt
  rw [State.srtpReport, footerStart_eq hlb]
  exact ⟨toList_rxMkiOf (by simp) hm, srtpResults_are s _ _ _ _ _ (by omega) (by omega) (by omega) (by omega)⟩

/-- Settles O26: the checks pass or report, and the payload is the one range that is stored. -/
theorem srtpUnprotectRestoresThePayload : Obligations.SrtpUnprotectRestoresThePayload := by
  refine ⟨by decide, fun s h lb hwf hready hlen hlb htag hh => ?_, ?_⟩
  · have hbounds := rtpHdrLen_bounds hh
    have hstart := footerStart_eq hlb
    have hpass := srtpUnprotectChecks_pass.2 ⟨hready, hlen, hstart.symm ▸ htag, h, hstart.symm ▸ hh⟩
    have hexec := (exec_srtpUnprotect s).trans (runCommand_of_none hpass)
    rw [hstart, rtpHdrLenOr0_eq hh, State.srtpUnprotected, hstart] at hexec
    obtain ⟨hmki, hres⟩ := srtpReport_are hready.m_le hlb hh
    refine ⟨_, hexec, completedWith_ok rfl rfl, ?_, fun a ha => ?_, ?_, hmki, hres, rfl⟩
    · exact Memory.load_store_of_length hwf _ (by simp)
    · exact Memory.read_store_outside _ _ _ _ (by simp; omega)
    · exact Nat.mod_eq_of_lt (by have := s.pktLen.isLt; omega)
  · rintro s lb rfl
    exact reports_of_runCommand (exec_srtpUnprotect s) rfl rfl (srtpUnprotectChecks_code s)

/-- Settles O27: the checks pass or report, and the report is the command's one write. -/
theorem srtpParseLocatesTheFooter : Obligations.SrtpParseLocatesTheFooter := by
  refine ⟨by decide, fun s h lb hmkiLen hfits hlen hlb hh => ?_, fun s => ?_⟩
  · have hstart := footerStart_eq hlb
    have hpass := srtpParseChecks_pass.2 ⟨⟨hmkiLen, hfits⟩, hlen, h, hstart.symm ▸ hh⟩
    have hexec := (exec_srtpParse s).trans (runCommand_of_none hpass)
    rw [hstart, rtpHdrLenOr0_eq hh] at hexec
    obtain ⟨hmki, hres⟩ := srtpReport_are (Cfg.m_le hmkiLen) hlb hh
    exact ⟨_, hexec, completedWith_ok rfl rfl, hmki, hres, rfl⟩
  · exact reports_of_runCommand (exec_srtpParse s) rfl rfl (srtpParseChecks_code s)

end Sys2Proof.Machine

/-! PROOFS. The SRTCP commands (R230-R232): where protect puts payload, trailer word, MKI and tag, and what unprotect and parse
report. -/

namespace Sys2Proof.Machine

/-! SRTCP_PROTECT (R230). -/

section
variable {s : State} (hready : FramerReady s.cfgRtcp s)
include hready

theorem srtcpProtected_fits (hroom : 4 + s.cfgRtcp.m + s.cfgRtcp.t ≤ Config.params.pktCap - s.pktLen.toNat) :
    s.pktLen.toNat + 4 + s.cfgRtcp.m + s.cfgRtcp.t ≤ Config.params.pktCap := by
  have hfits := hready.fits
  omega

/-- The framed packet's length fits PKT_LEN, since it fits the buffer (R7, R230). -/
theorem srtcpProtected_pktLen (hroom : 4 + s.cfgRtcp.m + s.cfgRtcp.t ≤ Config.params.pktCap - s.pktLen.toNat) (P : Params) :
    (s.srtcpProtected P).pktLen.toNat = s.pktLen.toNat + 4 + s.cfgRtcp.m + s.cfgRtcp.t := by
  have hfits := srtcpProtected_fits hready hroom
  have hcap := pktCap_bounds
  exact Nat.mod_eq_of_lt (b := 2 ^ 16) (by simp only [State.packetLen]; omega)

theorem srtcpProtected_results (P : Params)
    (hroom : 4 + s.cfgRtcp.m + s.cfgRtcp.t ≤ Config.params.pktCap - s.pktLen.toNat) :
    SrtcpResultsAre (s.srtcpProtected P).res s.cfgRtcp (s.pktLen.toNat - 8) (s.pktLen.toNat + 4)
      (s.pktLen.toNat + 4 + s.cfgRtcp.m) s.srtcpTrailerOut := by
  have hfits := srtcpProtected_fits hready hroom
  have hcap := pktCap_bounds
  exact srtcpResults_are s.cfgRtcp (s.pktLen.toNat - 8) (s.pktLen.toNat + 4) (s.pktLen.toNat + 4 + s.cfgRtcp.m) _ (by omega)
    (by omega) (by omega)

variable (hhdr : 8 ≤ s.pktLen.toNat) (P : Params)
include hhdr

/-- Payload, trailer word, MKI and tag are stored one after another (R230). -/
theorem srtcpProtected_pkt : (s.srtcpProtected P).pkt = s.pkt.store 8
    (s.srtcpXform P .encrypt s.index31 s.srtcpE (s.pkt.load 8 (s.pktLen.toNat - 8)) ++ beBytes 4 s.srtcpTrailerOut.toNat ++
      s.mki.toList.take s.cfgRtcp.m ++ s.srtcpTag P) := by
  have hpay : 8 + (s.srtcpXform P .encrypt s.index31 s.srtcpE (s.pkt.load 8 (s.pktLen.toNat - 8))).length = s.pktLen.toNat := by
    simp; omega
  rw [← Memory.store_store_adjacent, ← Memory.store_store_adjacent, ← Memory.store_store_adjacent]
  simp only [List.length_append, ← Nat.add_assoc, hpay, length_beBytes, length_mkiOut hready]
  rfl

theorem srtcpProtected_read_outside {a : Nat} (ha : a < 8 ∨ s.pktLen.toNat + 4 + s.cfgRtcp.m + s.cfgRtcp.t ≤ a) :
    (s.srtcpProtected P).pkt.read a = s.pkt.read a := by
  rw [srtcpProtected_pkt hready hhdr]
  refine Memory.read_store_outside _ _ _ _ (ha.imp_right fun hb => ?_)
  simp only [List.length_append, length_srtcpXform, Memory.length_load, length_beBytes, length_mkiOut hready, State.srtcpTag,
    length_authTag]
  omega

variable (hwf : s.pkt.wf = true)
include hwf

theorem srtcpProtected_wf : (s.srtcpProtected P).pkt.wf = true := by
  rw [srtcpProtected_pkt hready hhdr]
  exact Memory.wf_store hwf _ _

theorem srtcpProtected_payload : (s.srtcpProtected P).pkt.load 8 (s.pktLen.toNat - 8) =
    s.srtcpXform P .encrypt s.index31 s.srtcpE (s.pkt.load 8 (s.pktLen.toNat - 8)) := by
  rw [srtcpProtected_pkt hready hhdr, List.append_assoc, List.append_assoc]
  exact Memory.load_store_part (xs := []) hwf rfl rfl (by simp)

theorem srtcpProtected_trailer :
    (s.srtcpProtected P).pkt.load s.pktLen.toNat 4 = beBytes 4 s.srtcpTrailerOut.toNat := by
  rw [srtcpProtected_pkt hready hhdr, List.append_assoc]
  exact Memory.load_store_part hwf rfl (by simp; omega) (by simp)

theorem srtcpProtected_mki :
    (s.srtcpProtected P).pkt.load (s.pktLen.toNat + 4) s.cfgRtcp.m = s.mki.toList.take s.cfgRtcp.m := by
  rw [srtcpProtected_pkt hready hhdr]
  exact Memory.load_store_part hwf rfl (by simp; omega) (length_mkiOut hready)

theorem srtcpProtected_tag :
    (s.srtcpProtected P).pkt.load (s.pktLen.toNat + 4 + s.cfgRtcp.m) s.cfgRtcp.t = s.srtcpTag P := by
  rw [srtcpProtected_pkt hready hhdr]
  exact Memory.load_store_part (zs := []) hwf (List.append_nil _).symm (by simp [length_mkiOut hready]; omega)
    (length_authTag ..)

/-- The tag is the one of the framed packet with its trailer word (R216, R230). -/
theorem srtcpProtected_tagMatches (hroom : 4 + s.cfgRtcp.m + s.cfgRtcp.t ≤ Config.params.pktCap - s.pktLen.toNat) :
    TagMatches s.cfgRtcp (s.srtcpProtected Config.params)
      ((s.srtcpProtected Config.params).pkt.load 0 (s.pktLen.toNat + 4)) := by
  have hauth : (s.srtcpProtected Config.params).pkt.load 0 (s.pktLen.toNat + 4) =
      (s.srtcpProtectedBody Config.params).load 0 (s.pktLen.toNat + 4) :=
    Memory.load_store_disjoint _ _ _ _ _ (.inl (by simp [State.packetLen]))
  apply tagMatches_of_load
  rw [srtcpProtected_pktLen hready hroom, Nat.add_sub_cancel, srtcpProtected_tag hready hhdr _ hwf, hauth]
  rfl

end

/-- Settles O28: the stored parts are read back, each from its place. -/
theorem srtcpProtectFramesThePacket : Obligations.SrtcpProtectFramesThePacket := by
  refine ⟨by decide, fun s w hwf hready hroom hhdr hw => ?_, fun s => ?_⟩
  · subst hw
    exact ⟨_, (exec_srtcpProtect s).trans (runCommand_of_none (srtcpProtectChecks_pass.2 ⟨hready, hroom, hhdr⟩)),
      completedWith_ok rfl rfl, fun a ha => srtcpProtected_read_outside hready hhdr _ (.inl ha),
      srtcpProtected_payload hready hhdr _ hwf, srtcpProtected_trailer hready hhdr _ hwf, srtcpProtected_mki hready hhdr _ hwf,
      srtcpProtected_tagMatches hready hhdr hwf hroom, fun a ha => srtcpProtected_read_outside hready hhdr _ (.inr ha),
      srtcpProtected_pktLen hready hroom Config.params, srtcpProtected_results hready Config.params hroom, rfl⟩
  · exact reports_of_runCommand (exec_srtcpProtect s) rfl rfl (srtcpProtectChecks_code s)

/-! SRTCP_UNPROTECT and SRTCP_PARSE (R231, R232). -/

section
variable {s : State} {lb : Nat} (hlb : lb + s.cfgRtcp.m + s.cfgRtcp.t = s.pktLen.toNat)
include hlb

theorem srtcpTrailerIn_eq : s.srtcpTrailerIn = BitVec.ofNat 32 (beRead (s.pkt.load (lb - 4) 4)) := by
  rw [State.srtcpTrailerIn, footerStart_eq hlb]

/-- Both report the MKI, where it was found, and the results (R231, R232). -/
theorem srtcpReport_are (hm : s.cfgRtcp.m ≤ 16) :
    s.srtcpReport.rxMki.toList = s.pkt.load lb s.cfgRtcp.m ++ List.replicate (16 - s.cfgRtcp.m) 0 ∧
      SrtcpResultsAre s.srtcpReport.res s.cfgRtcp (lb - 12) lb (lb + s.cfgRtcp.m)
        (BitVec.ofNat 32 (beRead (s.pkt.load (lb - 4) 4))) := by
  have hlt := s.pktLen.isLt
  rw [← srtcpTrailerIn_eq hlb, State.srtcpReport, footerStart_eq hlb]
  exact ⟨toList_rxMkiOf (by simp) hm, srtcpResults_are _ _ _ _ _ (by omega) (by omega) (by omega)⟩

/-- PKT[8 .. Lb-4) is decrypted when the received E is 1, and no other byte changes (R231). -/
theorem srtcpClear_eq (P : Params) : s.srtcpClear P = if s.srtcpTrailerIn.getLsbD 31 then
    s.pkt.store 8 (s.srtcpXform P .decrypt (s.srtcpTrailerIn.extractLsb' 0 31) true (s.pkt.load 8 (lb - 12))) else s.pkt := by
  rw [State.srtcpClear, footerStart_eq hlb, Nat.sub_sub]
  rfl

end

/-- Settles O29: the checks pass or report, and the payload is the one range that is stored, if the received E is 1. -/
theorem srtcpUnprotectRestoresThePayload : Obligations.SrtcpUnprotectRestoresThePayload := by
  refine ⟨by decide, fun s lb w hwf hready hlen hlb hw htag henc => ?_, ?_⟩
  · have hstart := footerStart_eq hlb
    have htrailer : s.srtcpTrailerIn = w := (srtcpTrailerIn_eq hlb).trans hw.symm
    have hpass := srtcpUnprotectChecks_pass.2 ⟨hready, hlen, hstart.symm ▸ htag, htrailer.symm ▸ henc⟩
    have hexec := (exec_srtcpUnprotect s).trans (runCommand_of_none hpass)
    rw [State.srtcpUnprotected, srtcpClear_eq hlb, htrailer, hstart] at hexec
    obtain ⟨hmki, hres⟩ := srtcpReport_are hlb hready.m_le
    rw [← hw] at hres
    have hpktLen : (BitVec.ofNat 16 (lb - 4)).toNat = lb - 4 := Nat.mod_eq_of_lt (by have := s.pktLen.isLt; omega)
    refine ⟨_, hexec, completedWith_ok rfl rfl, fun he => ?_, fun he a => ?_, fun a ha => ?_, hpktLen, hmki, hres, rfl⟩
    · simp only [State.complete_pkt, he, if_true]
      exact Memory.load_store_of_length hwf _ (by simp)
    · simp only [State.complete_pkt, he, Bool.false_eq_true, if_false]
    · simp only [State.complete_pkt]
      split_ifs
      · exact Memory.read_store_outside _ _ _ _ (by simp; omega)
      · rfl
  · rintro s lb w rfl rfl
    exact reports_of_runCommand (exec_srtcpUnprotect s) rfl rfl (srtcpUnprotectChecks_code s)

/-- Settles O30: the checks pass or report, and the report is the command's one write. -/
theorem srtcpParseExtractsTheIndex : Obligations.SrtcpParseExtractsTheIndex := by
  refine ⟨by decide, fun s lb hmkiLen hfits hlen hlb => ?_, fun s => ?_⟩
  · obtain ⟨hmki, hres⟩ := srtcpReport_are hlb (Cfg.m_le hmkiLen)
    exact ⟨_, (exec_srtcpParse s).trans (runCommand_of_none (srtcpParseChecks_pass.2 ⟨⟨hmkiLen, hfits⟩, hlen⟩)),
      completedWith_ok rfl rfl, hmki, hres, rfl⟩
  · exact reports_of_runCommand (exec_srtcpParse s) rfl rfl (srtcpParseChecks_code s)

end Sys2Proof.Machine

/-! PROOFS. Round trips (R223, R233): unprotect after protect restores the packet, and parse after protect reports the same. -/

namespace Sys2Proof.Machine

/-- Equal loads are equal bytes. -/
theorem Memory.read_eq_of_load_eq {m m' : Memory} {a n b : Nat} (h : m.load a n = m'.load a n) (ha : a ≤ b) (hb : b < a + n) :
    m.read b = m'.read b := by
  obtain ⟨k, rfl⟩ := Nat.exists_eq_add_of_le ha
  have hk : k < (m.load a n).length := by simp; omega
  rw [← Memory.getElem_load m a n k hk, ← Memory.getElem_load m' a n k (by simp; omega)]
  exact List.getElem_of_eq h hk

/-- Buffers that agree on the header and on the payload agree on the packet. -/
theorem Memory.read_eq_of_header_of_payload {m m' : Memory} {h n : Nat} (hhdr : ∀ a, a < h → m.read a = m'.read a)
    (hpay : m.load h (n - h) = m'.load h (n - h)) : ∀ a, a < n → m.read a = m'.read a := by
  intro a ha
  by_cases hah : a < h
  · exact hhdr a hah
  · exact Memory.read_eq_of_load_eq hpay (by omega) (by omega)

/-- The result registers say all that the rule says of them, so equal reports are equal registers. -/
theorem SrtpResultsAre.unique {r r' : Results} {c : Cfg} {hdr pay mkiOff tagOff seq : Nat} {roc : BitVec 32}
    (h : SrtpResultsAre r c hdr pay mkiOff tagOff roc seq) (h' : SrtpResultsAre r' c hdr pay mkiOff tagOff roc seq) : r' = r := by
  obtain ⟨hhdr, hpay, hmki, htag, hidx, hflags⟩ := h
  obtain ⟨hhdr', hpay', hmki', htag', hidx', hflags'⟩ := h'
  have hlo := r.idxLo.isLt
  have hlo' := r'.idxLo.isLt
  rcases r with ⟨⟩
  rcases r' with ⟨⟩
  simp only [Results.mk.injEq, ← BitVec.toNat_inj] at *
  exact ⟨by omega, by omega, by omega, by omega, by omega, by omega, hflags'.trans hflags.symm⟩

theorem SrtcpResultsAre.unique {r r' : Results} {c : Cfg} {pay mkiOff tagOff : Nat} {w : Word}
    (h : SrtcpResultsAre r c pay mkiOff tagOff w) (h' : SrtcpResultsAre r' c pay mkiOff tagOff w) : r' = r := by
  obtain ⟨hhdr, hpay, hmki, htag, hlo, hhi, hflags⟩ := h
  obtain ⟨hhdr', hpay', hmki', htag', hlo', hhi', hflags'⟩ := h'
  rcases r with ⟨⟩
  rcases r' with ⟨⟩
  simp only [Results.mk.injEq, ← BitVec.toNat_inj] at *
  exact ⟨by omega, by omega, by omega, by omega, hlo'.trans hlo.symm, hhi'.trans hhi.symm, hflags'.trans hflags.symm⟩

/-- A protect that reports OK has passed its checks and made its writes (R220). -/
theorem srtpProtect_ok {s t : State} (hexec : exec .srtpProtect s = .next t) (hok : t.status.code = .ok) :
    ∃ h, FramerReady s.cfgRtp s ∧ s.cfgRtp.m + s.cfgRtp.t ≤ Config.params.pktCap - s.pktLen.toNat ∧
      rtpHdrLen s.pkt s.pktLen.toNat = some h ∧ t = (s.srtpProtected Config.params h).complete .ok := by
  rw [exec_srtpProtect] at hexec
  obtain ⟨hpass, ht⟩ := runCommand_ok hexec (by simp [srtpProtectChecks, frCheckFull]) hok
  obtain ⟨hready, hroom, h, hh⟩ := srtpProtectChecks_pass.1 hpass
  rw [State.packetLen, rtpHdrLenOr0_eq hh] at ht
  exact ⟨h, hready, hroom, hh, ht⟩

/-- The packet that SRTP_PROTECT leaves is one that SRTP_UNPROTECT and SRTP_PARSE take, with the header where it was. -/
theorem srtpProtected_hdr {s : State} {h : Nat} (hready : FramerReady s.cfgRtp s)
    (hh : rtpHdrLen s.pkt s.pktLen.toNat = some h) (P : Params) :
    (∀ a, a < h → (s.srtpProtected P h).pkt.read a = s.pkt.read a) ∧
      rtpHdrLen (s.srtpProtected P h).pkt s.pktLen.toNat = some h :=
  have hread := fun a (ha : a < h) => srtpProtected_read_outside hready hh P (.inl ha)
  ⟨hread, rtpHdrLen_congr hh hread⟩

/-- The receiver's transform of the framed payload gives the payload back: it sees the same header, key and salt (R215). -/
theorem srtpProtected_decrypted {s : State} {h : Nat} (hready : FramerReady s.cfgRtp s)
    (hh : rtpHdrLen s.pkt s.pktLen.toNat = some h) (hwf : s.pkt.wf = true) (P : Params) :
    ((s.srtpProtected P h).complete .ok).srtpXform P .decrypt ((s.srtpProtected P h).pkt.load h (s.pktLen.toNat - h)) =
      s.pkt.load h (s.pktLen.toNat - h) := by
  have hbounds := rtpHdrLen_bounds hh
  obtain ⟨hhdr, -⟩ := srtpProtected_hdr hready hh P
  have hsame : ((s.srtpProtected P h).complete .ok).srtpXform P .decrypt = s.srtpXform P .decrypt := by
    refine srtpXform_congr ?_ ?_ _ _ ?_ ?_ fun a ha => hhdr a (by omega) <;> rfl
  rw [hsame, srtpProtected_payload hready hh _ hwf]
  exact payloadXform_decrypt_encrypt ..

/-- Settles O32: what protect leaves passes unprotect's checks, and one transform undoes the other. -/
theorem srtpUnprotectUndoesProtect : Obligations.SrtpUnprotectUndoesProtect := by
  intro s t hwf hexec hok
  obtain ⟨h, hready, hroom, hh, rfl⟩ := srtpProtect_ok hexec hok
  have hbounds := rtpHdrLen_bounds hh
  have hlen := srtpProtected_pktLen hready hroom Config.params h
  obtain ⟨hhdr, hparse⟩ := srtpProtected_hdr hready hh Config.params
  have hlong : 12 + s.cfgRtp.m + s.cfgRtp.t ≤ (s.srtpProtected Config.params h).pktLen.toNat := by omega
  have hready' : FramerReady s.cfgRtp ((s.srtpProtected Config.params h).complete .ok) :=
    hready.congr (hlen.trans_le (srtpProtected_fits hready hroom)) rfl rfl rfl
  obtain ⟨-, hunprotect, -⟩ := srtpUnprotectRestoresThePayload
  obtain ⟨u, hu, ⟨-, hstatus⟩, hpay, hout, hulen, -⟩ := hunprotect ((s.srtpProtected Config.params h).complete .ok) h
    s.pktLen.toNat (srtpProtected_wf hready hh _ hwf) hready' hlong hlen.symm (srtpProtected_tagMatches hready hh hwf hroom) hparse
  exact ⟨u, hu, by rw [hstatus], BitVec.eq_of_toNat_eq hulen,
    Memory.read_eq_of_header_of_payload (fun a ha => (hout a (.inl ha)).trans (hhdr a ha))
      (hpay.trans (srtpProtected_decrypted hready hh hwf _))⟩

/-- An SRTCP protect that reports OK has passed its checks and made its writes (R230). -/
theorem srtcpProtect_ok {s t : State} (hexec : exec .srtcpProtect s = .next t) (hok : t.status.code = .ok) :
    FramerReady s.cfgRtcp s ∧ 4 + s.cfgRtcp.m + s.cfgRtcp.t ≤ Config.params.pktCap - s.pktLen.toNat ∧ 8 ≤ s.pktLen.toNat ∧
      t = (s.srtcpProtected Config.params).complete .ok := by
  rw [exec_srtcpProtect] at hexec
  obtain ⟨hpass, ht⟩ := runCommand_ok hexec (by simp [srtcpProtectChecks, frCheckFull]) hok
  obtain ⟨hready, hroom, hhdr⟩ := srtcpProtectChecks_pass.1 hpass
  exact ⟨hready, hroom, hhdr, ht⟩

/-- The fields of a trailer word (R218). -/
theorem trailerWord_places (e : Bool) (i31 : BitVec 31) :
    (trailerWord e i31).getLsbD 31 = e ∧ (trailerWord e i31).extractLsb' 0 31 = i31 := by
  refine ⟨?_, ?_⟩
  · rw [trailerWord, BitVec.getLsbD_append]
    simp
  · simp (disch := decide) only [trailerWord, BitVec.extractLsb'_append_eq_of_add_le, BitVec.extractLsb'_eq_self]

/-- A word is read back from its four bytes (R10). -/
theorem ofNat_beRead_beBytes (w : Word) : BitVec.ofNat 32 (beRead (beBytes 4 w.toNat)) = w := by
  apply BitVec.eq_of_toNat_eq
  have hlt := w.isLt
  rw [beRead_beBytes, BitVec.toNat_ofNat]
  omega

/-- SRTCP_UNPROTECT finds the trailer word that SRTCP_PROTECT wrote (R230, R231). -/
theorem srtcpProtected_trailerIn {s : State} (hready : FramerReady s.cfgRtcp s) (hlen8 : 8 ≤ s.pktLen.toNat)
    (hwf : s.pkt.wf = true) (P : Params) :
    BitVec.ofNat 32 (beRead ((s.srtcpProtected P).pkt.load s.pktLen.toNat 4)) = s.srtcpTrailerOut := by
  rw [srtcpProtected_trailer hready hlen8 _ hwf, ofNat_beRead_beBytes]

/-- The receiver's transform of the framed payload, under the sent E and index, gives the payload back (R215). -/
theorem srtcpProtected_decrypted {s : State} (hready : FramerReady s.cfgRtcp s) (hlen8 : 8 ≤ s.pktLen.toNat)
    (hwf : s.pkt.wf = true) (P : Params) :
    ((s.srtcpProtected P).complete .ok).srtcpXform P .decrypt s.index31 s.srtcpE
      ((s.srtcpProtected P).pkt.load 8 (s.pktLen.toNat - 8)) = s.pkt.load 8 (s.pktLen.toNat - 8) := by
  have hsame : ((s.srtcpProtected P).complete .ok).srtcpXform P .decrypt = s.srtcpXform P .decrypt := by
    refine srtcpXform_congr ?_ ?_ _ _ ?_ fun a ha => srtcpProtected_read_outside hready hlen8 P (.inl ha) <;> rfl
  rw [hsame, srtcpProtected_payload hready hlen8 _ hwf]
  exact payloadXform_decrypt_encrypt ..

/-- Without a cipher the framed payload is the payload (R215, R230). -/
theorem srtcpProtected_plain {s : State} (hready : FramerReady s.cfgRtcp s) (hlen8 : 8 ≤ s.pktLen.toNat)
    (hwf : s.pkt.wf = true) (P : Params) (henc : s.cfgRtcp.enc = 0) :
    (s.srtcpProtected P).pkt.load 8 (s.pktLen.toNat - 8) = s.pkt.load 8 (s.pktLen.toNat - 8) := by
  obtain ⟨hnone, -⟩ := s.cfgRtcp.alg_eq
  rw [srtcpProtected_payload hready hlen8 _ hwf, State.srtcpXform, hnone henc]
  rfl

/-- Settles O33: with E = 1 one transform undoes the other, and with E = 0 there is no cipher and neither changes a byte. -/
theorem srtcpUnprotectUndoesProtect : Obligations.SrtcpUnprotectUndoesProtect := by
  intro s t hwf hexec hok
  obtain ⟨hready, hroom, hlen8, rfl⟩ := srtcpProtect_ok hexec hok
  have hlen := srtcpProtected_pktLen hready hroom Config.params
  have hhdr := fun a (ha : a < 8) => srtcpProtected_read_outside hready hlen8 Config.params (.inl ha)
  have hlong : 12 + s.cfgRtcp.m + s.cfgRtcp.t ≤ (s.srtcpProtected Config.params).pktLen.toNat := by omega
  obtain ⟨he, hindex⟩ := trailerWord_places s.srtcpE s.index31
  have hready' : FramerReady s.cfgRtcp ((s.srtcpProtected Config.params).complete .ok) :=
    hready.congr (hlen.trans_le (srtcpProtected_fits hready hroom)) rfl rfl rfl
  obtain ⟨-, hunprotect, -⟩ := srtcpUnprotectRestoresThePayload
  obtain ⟨u, hu, ⟨-, hstatus⟩, hpay, hclear, hout, hulen, -⟩ := hunprotect ((s.srtcpProtected Config.params).complete .ok)
    (s.pktLen.toNat + 4) s.srtcpTrailerOut (srtcpProtected_wf hready hlen8 _ hwf) hready' hlong hlen.symm
    (srtcpProtected_trailerIn hready hlen8 hwf _).symm (srtcpProtected_tagMatches hready hlen8 hwf hroom)
    fun h => of_decide_eq_true (he.symm.trans h)
  refine ⟨u, hu, by rw [hstatus], BitVec.eq_of_toNat_eq hulen,
    Memory.read_eq_of_header_of_payload (fun a ha => (hout a (.inl ha)).trans (hhdr a ha)) ?_⟩
  cases hE : s.srtcpE with
  | true =>
    have hdecrypted := srtcpProtected_decrypted hready hlen8 hwf Config.params
    rw [hE, ← hindex] at hdecrypted
    exact (hpay (he.trans hE)).trans hdecrypted
  | false =>
    have hplain := srtcpProtected_plain hready hlen8 hwf Config.params (not_not.1 (of_decide_eq_false hE))
    exact (Memory.load_congr fun k _ => hclear (he.trans hE) _).trans hplain

/-- The first bytes of a padded MKI are the MKI. -/
theorem take_append_replicate {xs bs : List Byte} {n k : Nat} (hxs : xs = bs ++ List.replicate k 0) (hbs : bs.length = n) :
    xs.take n = bs := by
  rw [hxs, List.take_left' hbs]

/-- Settles O34: what protect leaves passes parse's checks, and the two rules say the same of the result registers. -/
theorem parseAfterProtectReportsTheSame : Obligations.ParseAfterProtectReportsTheSame := by
  refine ⟨fun s t hwf hexec hok => ?_, fun s t hwf hexec hok => ?_⟩
  · obtain ⟨h, hready, hroom, hh, rfl⟩ := srtpProtect_ok hexec hok
    have hbounds := rtpHdrLen_bounds hh
    have hlen := srtpProtected_pktLen hready hroom Config.params h
    obtain ⟨hhdr, hparse⟩ := srtpProtected_hdr hready hh Config.params
    have hlong : 12 + s.cfgRtp.m + s.cfgRtp.t ≤ (s.srtpProtected Config.params h).pktLen.toNat := by omega
    obtain ⟨-, hrule, -⟩ := srtpParseLocatesTheFooter
    obtain ⟨u, hu, ⟨-, hstatus⟩, hmki, hres, -⟩ := hrule ((s.srtpProtected Config.params h).complete .ok) h s.pktLen.toNat
      hready.mkiLen_le (hlen.trans_le (srtpProtected_fits hready hroom)) hlong hlen.symm hparse
    refine ⟨u, hu, by rw [hstatus], ?_, ?_⟩
    · have hseq : (s.srtpProtected Config.params h).pkt.load 2 2 = s.pkt.load 2 2 :=
        Memory.load_congr fun k _ => hhdr _ (by omega)
      rw [State.complete_pkt, hseq] at hres
      exact (srtpProtected_results hready hh Config.params hroom).unique hres
    · exact (take_append_replicate hmki (Memory.length_load ..)).trans (srtpProtected_mki hready hh Config.params hwf)
  · obtain ⟨hready, hroom, hlen8, rfl⟩ := srtcpProtect_ok hexec hok
    have hlen := srtcpProtected_pktLen hready hroom Config.params
    have hlong : 12 + s.cfgRtcp.m + s.cfgRtcp.t ≤ (s.srtcpProtected Config.params).pktLen.toNat := by omega
    obtain ⟨-, hrule, -⟩ := srtcpParseExtractsTheIndex
    obtain ⟨u, hu, ⟨-, hstatus⟩, hmki, hres, -⟩ := hrule ((s.srtcpProtected Config.params).complete .ok) (s.pktLen.toNat + 4)
      hready.mkiLen_le (hlen.trans_le (srtcpProtected_fits hready hroom)) hlong hlen.symm
    refine ⟨u, hu, by rw [hstatus], ?_, ?_⟩
    · rw [State.complete_pkt, Nat.add_sub_cancel, srtcpProtected_trailerIn hready hlen8 hwf,
        Nat.add_sub_add_right _ 4 8] at hres
      exact (srtcpProtected_results hready Config.params hroom).unique hres
    · exact (take_append_replicate hmki (Memory.length_load ..)).trans (srtcpProtected_mki hready hlen8 Config.params hwf)

end Sys2Proof.Machine

/-! PROOFS. The control command NOP (R260). -/

namespace Sys2Proof.Machine

/-- OP of a command's word is the command's opcode (R101, R103). -/
theorem op_encode (i : Instr) : (encode i).op = i.opcode := by
  cases i <;> exact (packCommand_places ..).1

/-- NOP alone has OP = 0x00 (R103). -/
theorem eq_nop_of_opcode_eq_zero {i : Instr} (h : i.opcode = 0) : i = .nop := by
  cases i with
  | nop => rfl
  | _ => cases h

/-- A word with OP = 0x00 that decodes is NOP's, which is 0 (R260). -/
theorem eq_zero_of_decode {w : Word} {i : Instr} (hop : w.op = 0) (h : decode w = .ok i) : w = 0 := by
  obtain ⟨-, rfl⟩ := encodeOfDecodeIsTheWord w i h
  obtain rfl := eq_nop_of_opcode_eq_zero ((op_encode i).symm.trans hop)
  rfl

/-- Settles O15: every other word with OP = 0x00 fails to decode, and NOP has no checks and its own writes are none. -/
theorem nopCompletesAndDoesNothingElse : Obligations.NopCompletesAndDoesNothingElse := by
  refine ⟨by decide, fun w hop hne => ?_, fun s => ?_⟩
  · cases hd : decode w with
    | error e => exact ⟨e, rfl⟩
    | ok i => exact absurd (eq_zero_of_decode hop hd) hne
  · exact (exec_nop s).trans (runCommand_of_none rfl)

end Sys2Proof.Machine

/-! PROOFS. Completion (R270, R274), the codes of each command (R277), and that no step stops the block (R81, R85, R87). -/

namespace Sys2Proof.Machine

/-! Completion. -/

/-- No effect writes STATUS: only the completion does (R274). -/
theorem State.apply_status (s : State) (e : Effect) : (s.apply e).status = s.status := by rw [State.apply_frame]

/-- No effect writes CMD (R36). -/
theorem State.apply_cmd (s : State) (e : Effect) : (s.apply e).cmd = s.cmd := by rw [State.apply_frame]

/-- Every command reports the first code that its checks raise, or OK if they raise none (R270, R273). -/
theorem reports_firstRaised (i : Instr) (s : State) : Reports i s ((firstRaised (checksOf Config.params i s)).getD .ok) :=
  reports_of_runCommand (exec_eq i s) (s.apply_status _) (s.apply_cmd _) rfl

/-- A completion's code is the one that STATUS shows. -/
theorem CompletedWith.code_eq {c : Code} {s t : State} (h : CompletedWith c s t) : t.status.code = c := by
  rw [h.2]

/-- Settles O12: a command reports what its checks raise; a busy engine's turn is a command, or raises ILLEGAL_COMMAND. -/
theorem everyCommandCompletesAndErrorsChangeOnlyStatus : Obligations.EveryCommandCompletesAndErrorsChangeOnlyStatus := by
  refine ⟨fun i s => ⟨_, reports_firstRaised i s⟩, fun s hm => ?_⟩
  cases hd : decode s.pending with
  | error e => exact ⟨_, engineTurn_of_decode_error hm hd, ⟨rfl, rfl⟩, fun _ => rfl⟩
  | ok i =>
    obtain ⟨t, hexec, hdone, hframe⟩ := reports_firstRaised i s
    refine ⟨t, (engineTurn_of_decode hm hd).trans hexec, ?_⟩
    rw [hdone.code_eq]
    exact ⟨hdone, hframe⟩

/-! The codes of each command. -/

/-- The codes that R277's table gives a command, by its OP; the last row is the unprotect commands', the only ones left. -/
def rowCodes (op : Byte) : List Code :=
  if op = 0x00 then [.ok]
  else if op ∈ [0x08, 0x09, 0x12, 0x16] then [.ok, .badParameter]
  else if op ∈ [0x01, 0x02] then [.ok, .nullArgument, .badParameter]
  else if op ∈ [0x03, 0x04, 0x05, 0x0A, 0x0B] then [.ok, .nullArgument, .badParameter, .failed]
  else if op ∈ [0x10, 0x14] then [.ok, .nullArgument, .badParameter, .failed, .insufficientBufferSpace]
  else [.ok, .nullArgument, .badParameter, .failed, .authFailure]

theorem ok_mem_rowCodes (op : Byte) : Code.ok ∈ rowCodes op := by
  unfold rowCodes
  split_ifs <;> exact List.mem_cons_self

/-- A KDF command with a legal DEST has the checks of R165 (R104 (d)). -/
theorem kdfDestChecks_of_legal {dest : BitVec 3} (h : dest.toNat < 4) (P : Params) (s : State) :
    ∃ d, kdfDestChecks P s dest = kdfChecks P s d := by
  unfold kdfDestChecks
  cases hd : destOf dest with
  | none => exact absurd ((destOf_eq_none_iff dest).1 hd) (by omega)
  | some d => exact ⟨d, rfl⟩

/-- A legal command's checks carry codes of its row only (R277). -/
theorem checksOf_code_mem_rowCodes {i : Instr} (hwf : i.wf = true) (P : Params) (s : State) :
    ∀ x ∈ checksOf P i s, x.2 ∈ rowCodes i.opcode := by
  suffices h : (checksOf P i s).all (fun x => decide (x.2 ∈ rowCodes i.opcode)) = true by
    simpa only [List.all_eq_true, decide_eq_true_eq] using h
  cases i with
  | kdfRtp _ _ dest | kdfRtcp _ _ dest =>
    obtain ⟨d, hd⟩ := kdfDestChecks_of_legal (of_decide_eq_true hwf) P s
    rw [checksOf, hd]
    rfl
  | _ => rfl

/-- A legal command completes with a code of its row (R277). -/
theorem code_mem_rowCodes {i : Instr} {s t : State} (hwf : i.wf = true) (h : exec i s = .next t) :
    t.status.code ∈ rowCodes i.opcode := by
  rcases exec_cases h with ⟨c, hc, rfl⟩ | ⟨-, rfl⟩
  · exact checksOf_code_mem_rowCodes hwf _ s _ (firstRaised_mem hc)
  · exact ok_mem_rowCodes _

/-- Settles O13: each clause is a row of R277's table. -/
theorem commandsReportOnlyTheirCodes : Obligations.CommandsReportOnlyTheirCodes := by
  intro i s t hwf h
  have hcode := code_mem_rowCodes hwf h
  have of_row {ops : List Byte} {codes : List Code} (hrow : ∀ op ∈ ops, rowCodes op = codes) (hop : i.opcode ∈ ops) :
      t.status.code ∈ codes := hrow _ hop ▸ hcode
  refine ⟨fun hop => ?_, of_row (by decide), of_row (by decide), of_row (by decide), of_row (by decide), of_row (by decide)⟩
  exact List.mem_singleton.1 (of_row (ops := [0x00]) (by decide) (List.mem_singleton.2 hop))

/-! No event stops the block. -/

theorem engineTurn_next (s : State) : ∃ t, engineTurn s = .next t := by
  cases hm : s.mode with
  | idle => exact ⟨s, engineTurn_of_idle hm⟩
  | busy =>
    obtain ⟨t, ht, -⟩ := everyCommandCompletesAndErrorsChangeOnlyStatus.2 s hm
    exact ⟨t, ht⟩

theorem hostRead_next (off : Nat) (s : State) : ∃ t, hostRead off s = .next t := by
  obtain ⟨w, d, h⟩ := hostRead_cases off s
  exact ⟨_, h⟩

theorem hostWrite_next (off : Nat) (v : Word) (s : State) : ∃ t, hostWrite off v s = .next t := by
  rcases hostWrite_cases off v s with h | ⟨-, -, h⟩ | ⟨-, -, h⟩ <;> exact ⟨_, h⟩

theorem runEvent_next (e : Event) (s : State) : ∃ t, runEvent e s = .next t := by
  cases e with
  | hostRead off => exact hostRead_next off s
  | hostWrite off v => exact hostWrite_next off v s
  | hardReset ram => exact ⟨_, rfl⟩
  | engineTurn => exact engineTurn_next s

/-- Settles O58: a step is one event, and every event answers a next state. -/
theorem everyStepAnswersANextState : Obligations.EveryStepAnswersANextState :=
  fun s => runEvent_next s.nextEvent s.popEvent

end Sys2Proof.Machine

/-! PROOFS. The interrupt output (R280): what raises it, and what alone lowers it. -/

namespace Sys2Proof.Machine

theorem State.irq_iff (s : State) : s.irq = true ↔ s.ie = true ∧ s.status.done = true := Bool.and_eq_true_iff

/-- A completion with any code sets DONE, so IRQ is IE (R274, R280). -/
theorem State.irq_complete (s : State) (c : Code) : (s.complete c).irq = s.ie := Bool.and_true s.ie

/-- A command that completes, with any code, raises IRQ if IE = 1 (R280). -/
theorem irq_exec {i : Instr} {s t : State} (h : exec i s = .next t) : t.irq = s.ie := by
  rcases exec_cases h with ⟨c, -, rfl⟩ | ⟨-, rfl⟩
  · exact s.irq_complete c
  · rw [State.irq_complete, State.apply_frame]

/-- A busy engine's turn completes the pending word, legal or not, so IRQ is IE (R280). -/
theorem irq_engineTurn {s t : State} (hm : s.mode = .busy) (h : engineTurn s = .next t) : t.irq = s.ie := by
  cases hd : decode s.pending with
  | error e =>
    rw [engineTurn_of_decode_error hm hd] at h
    cases h
    exact s.irq_complete _
  | ok i =>
    rw [engineTurn_of_decode hm hd] at h
    exact irq_exec h

/-- A write to STATUS lowers IRQ by bit 1, and only by it (R261, R280). -/
theorem State.irq_writeStatus (s : State) (v : Word) : (s.writeStatus v).irq = (s.irq && !v.getLsbD 1) :=
  (Bool.and_assoc ..).symm

/-- A write to CTRL without SRST stores IE (R34, R280). -/
theorem State.irq_writeCtrl (s : State) {v : Word} (hv : v.getLsbD 1 = false) :
    (s.writeCtrl v).irq = (v.getLsbD 0 && s.status.done) := by
  rw [State.writeCtrl, hv]
  rfl

/-- A write to any word but CTRL and STATUS leaves IRQ alone (R280). -/
theorem State.irq_writeTarget (s : State) {g : Target} (v : Word) (hctrl : g ≠ .ctrl) (hstatus : g ≠ .status) :
    (s.writeTarget g v).irq = s.irq := by
  cases g with
  | ctrl => exact absurd rfl hctrl
  | status => exact absurd rfl hstatus
  | window n k => cases n <;> rfl
  | _ => rfl

/-- A write to a word of the map lowers IRQ only at STATUS with bit 1, or at CTRL with IE cleared or SRST set (R280). -/
theorem irq_writeTarget_cases {s : State} {off : Nat} (v : Word) (hs : s.irq = true) :
    (s.writeTarget (targetOf off) v).irq = true ∨ (off = 0x00C ∧ v.getLsbD 1 = true) ∨
      (off = 0x008 ∧ (v.getLsbD 0 = false ∨ v.getLsbD 1 = true)) := by
  by_cases hstatus : targetOf off = .status
  · cases hv : v.getLsbD 1 with
    | true => exact .inr (.inl ⟨(targetOf_status_iff off).1 hstatus, rfl⟩)
    | false =>
      left
      rw [hstatus, State.writeTarget, State.irq_writeStatus, hs, hv]
      rfl
  by_cases hctrl : targetOf off = .ctrl
  · by_cases hv : v.getLsbD 0 = false ∨ v.getLsbD 1 = true
    · exact .inr (.inr ⟨(targetOf_ctrl_iff off).1 hctrl, hv⟩)
    · rw [not_or, Bool.not_eq_false, Bool.not_eq_true] at hv
      obtain ⟨hie, hsrst⟩ := hv
      left
      rw [hctrl, State.writeTarget, State.irq_writeCtrl s hsrst, hie, (s.irq_iff.1 hs).2]
      rfl
  · exact .inl ((s.irq_writeTarget v hctrl hstatus).trans hs)

/-- What alone lowers IRQ: an acknowledgement, a write to CTRL that clears IE or resets, or a hard reset (R280). -/
theorem irq_runEvent {e : Event} {s t : State} (h : runEvent e s = .next t) (hs : s.irq = true) : t.irq = true ∨
    (∃ v : Word, e = .hostWrite 0x00C v ∧ v.getLsbD 1 = true) ∨
    (∃ v : Word, e = .hostWrite 0x008 v ∧ (v.getLsbD 0 = false ∨ v.getLsbD 1 = true)) ∨ ∃ ram, e = .hardReset ram := by
  cases e with
  | hostRead off =>
    obtain ⟨w, d, hr⟩ := hostRead_cases off s
    cases hr.symm.trans h
    exact .inl hs
  | hostWrite off v =>
    rcases hostWrite_cases off v s with hw | ⟨-, -, hw⟩ | ⟨-, -, hw⟩ <;> cases hw.symm.trans h
    · exact .inl hs
    · exact .inl hs
    · rcases irq_writeTarget_cases (off := off) v hs with hirq | ⟨rfl, hv⟩ | ⟨rfl, hv⟩
      · exact .inl hirq
      · exact .inr (.inl ⟨v, rfl, hv⟩)
      · exact .inr (.inr (.inl ⟨v, rfl, hv⟩))
  | hardReset ram => exact .inr (.inr (.inr ⟨ram, rfl⟩))
  | engineTurn =>
    cases hm : s.mode with
    | idle =>
      cases (engineTurn_of_idle hm).symm.trans h
      exact .inl hs
    | busy => exact .inl ((irq_engineTurn hm h).trans (s.irq_iff.1 hs).1)

/-- Settles O53: a completion sets DONE, and of all events only those of `irq_runEvent` lower IRQ. -/
theorem interruptFollowsEnableAndDone : Obligations.InterruptFollowsEnableAndDone := by
  refine ⟨fun _ => rfl, fun i s t h => irq_exec h, fun s v hv => ⟨_, hostWrite_status v s, ?_⟩,
    fun s v hb hv => ⟨_, hostWrite_register (t := .ctrl) (by decide) rfl hb v, s.irq_writeCtrl hv⟩,
    fun s t h hs => irq_runEvent (s := s.popEvent) h hs⟩
  rw [State.irq_writeStatus, hv, Bool.not_true, Bool.and_false]

end Sys2Proof.Machine

/-! PROOFS. The resets (R300, R301): the values they leave, and that the state after reset meets the invariant. -/

namespace Sys2Proof.Machine

/-- Settles O10: the block after reset is idle with BUSY = 0, its packet list is empty, and its code is OK. -/
theorem resetMeetsTheInvariant : Obligations.ResetMeetsTheInvariant where
  busyMode := by simp [State.reset, Status.zero]
  cmdPending := fun _ => rfl
  canonical := rfl
  inBuffer := rfl
  codeProduced := rfl

/-- After a hard reset PKT holds the event's bytes, as far as both reach (R300). -/
theorem State.read_hardReset_pkt (P : Params) (s : State) (ram : Ram) {a : Nat} (hcap : a < P.pktCap) (h : a < ram.pkt.length) :
    (s.hardReset P ram).pkt.read a = ram.pkt[a] := by
  have hin := Memory.read_store_inside (m := []) rfl 0 (ram.pkt.take P.pktCap) a (by simp [hcap, h])
  rwa [Nat.zero_add, List.getElem_take] at hin

/-! The registers that reset leaves at a value given by its fields read 0 (R35, R42, R51). -/

theorem Status.word_zero : Status.zero.word = 0 := by decide

theorem Cfg.word_zero : Cfg.zero.word = 0 := by decide

theorem ResFlags.word_zero : Results.zero.flags.word = 0 := by decide

/-- Settles O8: the registers hold what `State.reset` gives them and the RAM windows what the event brings; PKT is
`State.read_hardReset_pkt`. -/
theorem hardResetLeavesTheSpecValues : Obligations.HardResetLeavesTheSpecValues := by
  intro s ram
  refine ⟨s.hardReset Config.params ram, rfl, rfl, rfl, rfl, rfl, rfl, ?lengthsAndIndex⟩
  refine ⟨rfl, rfl, rfl, rfl, rfl, rfl, Cfg.word_zero, Cfg.word_zero, ?keyLengths⟩
  refine ⟨rfl, rfl, rfl, rfl, rfl, ?results⟩
  refine ⟨rfl, rfl, rfl, rfl, rfl, rfl, ResFlags.word_zero, ?clearedWindows⟩
  refine ⟨Vector.toList_replicate, Vector.toList_replicate, Vector.toList_replicate, ?ramWindows⟩
  exact ⟨rfl, rfl, rfl, rfl, rfl, rfl, fun _ => s.read_hardReset_pkt Config.params ram, rfl, rfl, rfl⟩

/-- A write to CTRL with SRST = 1 while BUSY = 0 is the soft reset (R34, R301). -/
theorem hostWrite_srst {v : Word} (hv : v.getLsbD 1 = true) {s : State} (hb : s.status.busy = false) :
    hostWrite 0x008 v s = .next s.softReset := by
  rw [hostWrite_register (t := .ctrl) (by decide) rfl hb, State.writeTarget, State.writeCtrl, if_pos hv]

/-- Settles O9: the write is `State.softReset` while BUSY = 0, and one more ignored write while BUSY = 1. -/
theorem softResetKeepsTheWindows : Obligations.SoftResetKeepsTheWindows :=
  ⟨fun s _ hv hb => ⟨s.softReset, hostWrite_srst hv hb, rfl, rfl, rfl, rfl, rfl, rfl, Vector.toList_replicate,
      Vector.toList_replicate, Vector.toList_replicate, Status.word_zero, rfl, rfl⟩,
    fun _ v hb => hostWrite_busy ⟨rfl, .inl (by decide)⟩ (by decide) v hb⟩

end Sys2Proof.Machine
